-- ==== Sys2Proof/Word.lean ====
section
/-! DEFINITION. The value types of the spec: bytes, symbol strings, text, and the closed enumerations of
10_state.md section 3. -/

namespace Sys2Proof

/-- A byte, unsigned, bit `j` of weight `2^j` (00_scope.md R8). -/
abbrev Byte := BitVec 8

/-- A sequence of symbols 0 (`false`) and 1 (`true`), lowest position first: a bitstream or a window (R9). -/
abbrev Bits := List Bool

/-- Displayed text or a label string, first character first. The empty list is the empty string. -/
abbrev Text := List Char

/-- A canonical SegmentCode as a number: its first character is the most significant bit (log 10). -/
abbrev SegCode := BitVec 7

/-- The five DeviceVariants, a closed set (10_state.md R33). -/
inductive DeviceVariant where
  | unknown | variant1 | variant2 | variant3 | variant4
deriving DecidableEq, Repr, Inhabited

/-- The 18 Glyphs (10_state.md R34): the ten digits, the letters A u t o L E F, the dash. `blank` is no Glyph. -/
inductive Glyph where
  | d0 | d1 | d2 | d3 | d4 | d5 | d6 | d7 | d8 | d9
  | capA | smallU | smallT | smallO | capL | capE | capF | dash
deriving DecidableEq, Repr

/-- The two hard errors (60_exceptions.md R191, R192). The soft conditions have no constructor (R193). -/
inductive HardError where
  | outOfRange | malformedFrame
deriving DecidableEq, Repr

/-- The four reasons a request is refused (60_exceptions.md R194). -/
inductive RefusalReason where
  | variantNotSet | reservedOp | reservedVariantCode | overCapacity
deriving DecidableEq, Repr

end Sys2Proof
end

