-- ==== Sys2Proof/Config.lean ====
section
/-! DEFINITION. What one block has fixed and the spec leaves open: the record of open parameters (00_scope.md R7),
the record that holds the source's numeric literals (93_implementation_defined.md U6), and the free values. -/

namespace Sys2Proof

/-- The open parameters of a block, as plain data (00_scope.md R7; 10_state.md R27 to R31; 30_encoding.md R71).
State carries one such record and no operation writes it (10_state.md R26; log 5). -/
structure Params where
  /-- CAP: the largest operand, in bytes, the operand port can present. -/
  cap    : Nat
  /-- SEG_ROM: for each of the 128 SegmentCodes a Glyph, or `none` for blank. -/
  segRom : Vector (Option Glyph) 128
  /-- FN3_A: the labels of positions 25, 26, 27 in flavour A. -/
  fn3A   : Vector Text 3
  /-- LBL_A: the labels of positions 60 to 87 in flavour A. -/
  lblA   : Vector Text 28
  /-- FN3_B: the labels of positions 25, 26, 27 in flavour B. -/
  fn3B   : Vector Text 3
  /-- LBL_B: the labels of positions 64 to 79 in flavour B. -/
  lblB   : Vector Text 16
deriving DecidableEq, Repr

/-- R30's law of the flavour A label table: at least six of its 28 entries are empty placeholders, at positions the
source does not give. -/
abbrev Params.SixPlaceholders (p : Params) : Prop := 6 ≤ (p.lblA.toList.filter List.isEmpty).length

/-- The laws of the parameters: CAP >= 21 (R7, R71), law 3 of SEG_ROM (R27) and the placeholders of LBL_A (R30). The other
laws of R27, R29, R30 and R31 (totality, range, purity) hold by the types. -/
abbrev Params.Lawful (p : Params) : Prop := 21 ≤ p.cap ∧ p.segRom[0] = none ∧ p.SixPlaceholders

/-- R32's requirement for flavour A: no two positions carry the same non-empty label. -/
abbrev Params.DistinctA (p : Params) : Prop :=
  ((p.fn3A.toList ++ p.lblA.toList).filter (fun l => !l.isEmpty)).Nodup

/-- R32's requirement for flavour B. -/
abbrev Params.DistinctB (p : Params) : Prop :=
  ((p.fn3B.toList ++ p.lblB.toList).filter (fun l => !l.isEmpty)).Nodup

/-- The numeric literals of the source in one record, so that an audit against a device changes them in one place
(93_implementation_defined.md U6; log 13). Its value is `Machine.literals`. -/
structure Literals where
  /-- KEY (10_state.md R25). -/
  key       : List Byte
  /-- VSEL (42_variant_detector.md R111): the listed patterns, first character most significant. -/
  selectors : List (BitVec 8 × DeviceVariant)
  /-- The first address of the selector window and its width (R110). -/
  selAt     : Nat × Nat
  /-- The first addresses of the four digit windows (43_digit_decoder.md R121). -/
  digitAt   : Vector Nat 4
  /-- The segment permutation, read as a gather (R123). -/
  perm      : List Nat
  /-- The 3-symbol function window, half open (44_annotation_decoder.md R144). -/
  fn3       : Nat × Nat
  /-- The label window of flavour A, half open (R145). -/
  lblA      : Nat × Nat
  /-- FUNCPOS_A (R146). -/
  funcA     : List Nat
  /-- The label window of flavour B, half open (R149). -/
  lblB      : Nat × Nat
  /-- FUNCPOS_B (R150). -/
  funcB     : List Nat

namespace Config

/-- CAP's default (92_eei_decisions.md D2). Used by tests only. -/
def CAP_DEFAULT : Nat := 32

/-- The value of VAR after the `n`-th reset: free, nothing constrains it (10_state.md R36; log 1). -/
opaque freeVar : Nat → DeviceVariant

/-- How far the reset block's CAP lies above 21: free (00_scope.md R7; log 5). -/
opaque capSpare : Nat

/-- SEG_ROM of the reset block but for law 3: free (10_state.md R27; log 5). -/
opaque segRomFree : Vector (Option Glyph) 128

/-- FN3_A of the reset block: free (10_state.md R29; log 5). -/
opaque fn3AFree : Vector Text 3

/-- LBL_A of the reset block but for R30's law: free (log 5). -/
opaque lblAFree : Vector Text 28

/-- FN3_B of the reset block: free (10_state.md R29; log 5). -/
opaque fn3BFree : Vector Text 3

/-- LBL_B of the reset block: free (10_state.md R31; log 5). -/
opaque lblBFree : Vector Text 16

/-- LBL_A of the reset block: the free table if it has R30's six placeholders, and otherwise the table of empty labels,
which has them. So the law holds whatever the free table is, and nothing else is known of the entries (log 5). -/
def lblA : Vector Text 28 :=
  if 6 ≤ (lblAFree.toList.filter List.isEmpty).length then lblAFree else Vector.replicate 28 []

/-- The parameters of the block that `State.reset` is: free values that meet `Params.Lawful` by their form. -/
def params : Params where
  cap    := capSpare + 21
  segRom := segRomFree.set 0 none
  fn3A   := fn3AFree
  lblA   := lblA
  fn3B   := fn3BFree
  lblB   := lblBFree

end Config

end Sys2Proof
end

