-- ==== Sys2Proof/Machine/Tables.lean ====
section
/-! DEFINITION. The numeric literals of the source, as one record (93_implementation_defined.md U6), and the default
contents of SEG_ROM. -/

namespace Sys2Proof

/-- The source's literals, "preserved exactly" (00_scope.md R5, R6). -/
def Machine.literals : Literals where
  key := [0x41, 0x21, 0x73, 0x55, 0xA2, 0xC1, 0x32, 0x71, 0x66, 0xAA,
          0x3B, 0xD0, 0xE2, 0xA8, 0x33, 0x14, 0x20, 0x21, 0xAA, 0xBB]
  selectors := [(0b11000000#8, .variant1), (0b01000000#8, .variant2), (0b10000000#8, .variant3),
                (0b00100000#8, .variant4)]
  selAt := (16, 8)
  digitAt := #v[28, 36, 44, 52]
  perm := [3, 2, 7, 6, 1, 5, 4]
  fn3 := (25, 28)
  lblA := (60, 88)
  funcA := [60, 63, 64, 65, 80]
  lblB := (64, 80)
  funcB := [64, 69]

/-- The 18 entries of the default segment table. PRESUMED: from general knowledge, not in the source
(10_state.md R28, 93_implementation_defined.md G1; log 6). -/
def Config.segDefaultRows : List (SegCode × Glyph) :=
  [(0b1110111#7, .d0), (0b0010010#7, .d1), (0b1011101#7, .d2), (0b1011011#7, .d3), (0b0111010#7, .d4),
   (0b1101011#7, .d5), (0b1101111#7, .d6), (0b1010010#7, .d7), (0b1111111#7, .d8), (0b1111011#7, .d9),
   (0b1111110#7, .capA), (0b0000111#7, .smallU), (0b0101101#7, .smallT), (0b0001111#7, .smallO),
   (0b0100101#7, .capL), (0b1101101#7, .capE), (0b1101100#7, .capF), (0b0001000#7, .dash)]

/-- SEG_ROM_DEFAULT: the 18 entries, every other address blank (10_state.md R28). A configuration value for running
examples, never a fact about the hardware; no definition of the machine uses it. -/
def Config.SEG_ROM_DEFAULT : Vector (Option Glyph) 128 :=
  Vector.ofFn fun i => Config.segDefaultRows.lookup (BitVec.ofNat 7 i.val)

/-- The SEL patterns that have a row of their own (42_variant_detector.md R111). -/
def listedSelectors : List (BitVec 8) := Machine.literals.selectors.map (·.1)

/-- The SegmentCodes that have a row of their own (10_state.md R28). -/
def listedSegments : List SegCode := Config.segDefaultRows.map (·.1)

end Sys2Proof
end

