-- ==== Sys2Proof/Syntax.lean ====
section
/-! DEFINITION. The request as the host presents it (30_encoding.md R70, R71, R75, R76; log 7) and `Instr`, one
constructor per row of spec/opcode_table.json. -/

namespace Sys2Proof

/-- An operand as R71 presents it. -/
inductive Operand where
  /-- no operand lines are driven -/
  | none
  /-- a byte sequence: its length L and L bytes in index order -/
  | bytes (b : List Byte)
  /-- a bitstream: its length N and N symbols in address order -/
  | symbols (S : Bits)
  /-- a bitstream and a 3-bit DeviceVariant code (ANNDEC) -/
  | symbolsVariant (S : Bits) (v : BitVec 3)
  /-- the 2-bit reason beside outcome code 11 (R76) -/
  | reason (r : BitVec 2)
deriving DecidableEq, Repr

/-- A code, with the port that carries it: the five formats of the opcode table (log 8). -/
inductive Code where
  /-- OP3: the operation code of a request (R70) -/
  | op (c : BitVec 3)
  /-- SEL8: a pattern at the VSEL look-up, first character most significant (R111) -/
  | sel (c : BitVec 8)
  /-- VAR3: a DeviceVariant code (R75) -/
  | var (c : BitVec 3)
  /-- SEG7: an address of SEG_ROM, first character most significant (R28) -/
  | seg (c : BitVec 7)
  /-- OUT2: an outcome code (R76) -/
  | out (c : BitVec 2)
deriving DecidableEq, Repr

/-- One request at the block's ports. -/
structure Request where
  code    : Code
  operand : Operand
deriving DecidableEq, Repr

/-- What the host does next: apply the reset input (70_reset_and_hazards.md R220) or make a request (R85). -/
inductive HostInput where
  | reset
  | request (r : Request)
deriving DecidableEq, Repr

/-- The instructions: one constructor per row of the opcode table, with the operands R70 gives the row. -/
inductive Instr where
  -- OP3, the operations (R70)
  | deobf (raw : List Byte)
  | bitrev (p : List Byte)
  | vdet (S : Bits)
  | digdec (S : Bits)
  | anndec (S : Bits) (v : BitVec 3)
  | decode (raw : List Byte)
  | vsetup (raw : List Byte)
  | reservedOp (a : Operand)
  -- SEL8, the selector patterns (R111)
  | selVariant1
  | selVariant2
  | selVariant3
  | selVariant4
  | selUnknown (w : BitVec 8)
  -- VAR3, the DeviceVariant codes (R75)
  | varcodeUnknown
  | varcodeVariant1
  | varcodeVariant2
  | varcodeVariant3
  | varcodeVariant4
  | varcodeReserved101
  | varcodeReserved110
  | varcodeReserved111
  -- SEG7, the addresses of the default segment table (R28) and all others (R125)
  | seg0
  | seg1
  | seg2
  | seg3
  | seg4
  | seg5
  | seg6
  | seg7
  | seg8
  | seg9
  | segA
  | segU
  | segT
  | segO
  | segL
  | segE
  | segF
  | segDash
  | segBlank (c : SegCode)
  -- OUT2, the outcome codes (R76)
  | outOk
  | outOutOfRange
  | outMalformed
  | outRefused (r : BitVec 2)
deriving DecidableEq, Repr

end Sys2Proof
end

