-- ==== Sys2Proof/WellFormed.lean ====
section
/-! DEFINITION. Which instructions are well-formed: the two rows of the opcode table that stand for "every other
pattern" (SEL_UNKNOWN, SEG_BLANK) must not carry a pattern that has a row of its own. Operands are not bounded here:
an operand over CAP is a request the block refuses (30_encoding.md R71), and it is in the meanings. -/

namespace Sys2Proof

/-- The check on an instruction, one arm per constructor. -/
def Instr.wf : Instr → Bool
  | .selUnknown w => !listedSelectors.contains w
  | .segBlank c => !listedSegments.contains c
  | .deobf _ | .bitrev _ | .vdet _ | .digdec _ | .anndec _ _ | .decode _ | .vsetup _ | .reservedOp _ => true
  | .selVariant1 | .selVariant2 | .selVariant3 | .selVariant4 => true
  | .varcodeUnknown | .varcodeVariant1 | .varcodeVariant2 | .varcodeVariant3 | .varcodeVariant4 => true
  | .varcodeReserved101 | .varcodeReserved110 | .varcodeReserved111 => true
  | .seg0 | .seg1 | .seg2 | .seg3 | .seg4 | .seg5 | .seg6 | .seg7 | .seg8 | .seg9 => true
  | .segA | .segU | .segT | .segO | .segL | .segE | .segF | .segDash => true
  | .outOk | .outOutOfRange | .outMalformed | .outRefused _ => true

/-- A well-formed instruction. -/
abbrev Instr.WellFormed (i : Instr) : Prop := i.wf = true

end Sys2Proof
end

