-- ==== Sys2Proof/Decode.lean ====
section
/-! DEFINITION. The decoder from a request at the ports to an instruction, total and rejecting by name, the encoder
from an instruction to its request, and the host's word form of the decoder. The encoding tables are
30_encoding.md R70, R75, R76, 42_variant_detector.md R111 and 10_state.md R28. -/

namespace Sys2Proof

/-- Why the signals at the ports are no request (log 9). -/
inductive Reject where
  /-- The operand lines carry another kind of operand than the code's row names (R70, R71). -/
  | operandKind (c : Code) (a : Operand)
deriving DecidableEq, Repr

/-- The operation of an `op` code, with its operand (R70). Every one of the eight codes has a row. -/
def decodeOp (c : BitVec 3) (a : Operand) : Except Reject Instr :=
  match c.toNat, a with
  | 0, .bytes b => .ok (.deobf b)
  | 1, .bytes b => .ok (.bitrev b)
  | 2, .symbols S => .ok (.vdet S)
  | 3, .symbols S => .ok (.digdec S)
  | 4, .symbolsVariant S v => .ok (.anndec S v)
  | 5, .bytes b => .ok (.decode b)
  | 6, .bytes b => .ok (.vsetup b)
  | 7, a => .ok (.reservedOp a)
  | _, a => .error (.operandKind (.op c) a)

/-- The row of a selector pattern (R111): exact match on all 8 symbols. -/
def decodeSel (w : BitVec 8) : Instr :=
  if w = 0b11000000#8 then .selVariant1
  else if w = 0b01000000#8 then .selVariant2
  else if w = 0b10000000#8 then .selVariant3
  else if w = 0b00100000#8 then .selVariant4
  else .selUnknown w

/-- The row of a DeviceVariant code (R75, R80). -/
def decodeVar (c : BitVec 3) : Instr :=
  match c.toNat with
  | 0 => .varcodeUnknown
  | 1 => .varcodeVariant1
  | 2 => .varcodeVariant2
  | 3 => .varcodeVariant3
  | 4 => .varcodeVariant4
  | 5 => .varcodeReserved101
  | 6 => .varcodeReserved110
  | _ => .varcodeReserved111

/-- The row of a segment code (R28, R125). -/
def decodeSeg (c : SegCode) : Instr :=
  if c = 0b1110111#7 then .seg0
  else if c = 0b0010010#7 then .seg1
  else if c = 0b1011101#7 then .seg2
  else if c = 0b1011011#7 then .seg3
  else if c = 0b0111010#7 then .seg4
  else if c = 0b1101011#7 then .seg5
  else if c = 0b1101111#7 then .seg6
  else if c = 0b1010010#7 then .seg7
  else if c = 0b1111111#7 then .seg8
  else if c = 0b1111011#7 then .seg9
  else if c = 0b1111110#7 then .segA
  else if c = 0b0000111#7 then .segU
  else if c = 0b0101101#7 then .segT
  else if c = 0b0001111#7 then .segO
  else if c = 0b0100101#7 then .segL
  else if c = 0b1101101#7 then .segE
  else if c = 0b1101100#7 then .segF
  else if c = 0b0001000#7 then .segDash
  else .segBlank c

/-- The row of an outcome code (R76); only code 11 has a reason beside it. -/
def decodeOut (c : BitVec 2) (a : Operand) : Except Reject Instr :=
  match c.toNat, a with
  | 0, .none => .ok .outOk
  | 1, .none => .ok .outOutOfRange
  | 2, .none => .ok .outMalformed
  | 3, .reason r => .ok (.outRefused r)
  | _, a => .error (.operandKind (.out c) a)

/-- An instruction whose row takes no operand. -/
def bare (c : Code) (a : Operand) (i : Instr) : Except Reject Instr :=
  match a with
  | .none => .ok i
  | a => .error (.operandKind c a)

/-- The decoder. -/
def decode (r : Request) : Except Reject Instr :=
  match r.code with
  | .op c => decodeOp c r.operand
  | .sel w => bare (.sel w) r.operand (decodeSel w)
  | .var c => bare (.var c) r.operand (decodeVar c)
  | .seg c => bare (.seg c) r.operand (decodeSeg c)
  | .out c => decodeOut c r.operand

/-- The encoder: the request that an instruction is, from the rows of the opcode table. -/
def encode : Instr → Request
  | .deobf b => ⟨.op 0b000#3, .bytes b⟩
  | .bitrev b => ⟨.op 0b001#3, .bytes b⟩
  | .vdet S => ⟨.op 0b010#3, .symbols S⟩
  | .digdec S => ⟨.op 0b011#3, .symbols S⟩
  | .anndec S v => ⟨.op 0b100#3, .symbolsVariant S v⟩
  | .decode b => ⟨.op 0b101#3, .bytes b⟩
  | .vsetup b => ⟨.op 0b110#3, .bytes b⟩
  | .reservedOp a => ⟨.op 0b111#3, a⟩
  | .selVariant1 => ⟨.sel 0b11000000#8, .none⟩
  | .selVariant2 => ⟨.sel 0b01000000#8, .none⟩
  | .selVariant3 => ⟨.sel 0b10000000#8, .none⟩
  | .selVariant4 => ⟨.sel 0b00100000#8, .none⟩
  | .selUnknown w => ⟨.sel w, .none⟩
  | .varcodeUnknown => ⟨.var 0b000#3, .none⟩
  | .varcodeVariant1 => ⟨.var 0b001#3, .none⟩
  | .varcodeVariant2 => ⟨.var 0b010#3, .none⟩
  | .varcodeVariant3 => ⟨.var 0b011#3, .none⟩
  | .varcodeVariant4 => ⟨.var 0b100#3, .none⟩
  | .varcodeReserved101 => ⟨.var 0b101#3, .none⟩
  | .varcodeReserved110 => ⟨.var 0b110#3, .none⟩
  | .varcodeReserved111 => ⟨.var 0b111#3, .none⟩
  | .seg0 => ⟨.seg 0b1110111#7, .none⟩
  | .seg1 => ⟨.seg 0b0010010#7, .none⟩
  | .seg2 => ⟨.seg 0b1011101#7, .none⟩
  | .seg3 => ⟨.seg 0b1011011#7, .none⟩
  | .seg4 => ⟨.seg 0b0111010#7, .none⟩
  | .seg5 => ⟨.seg 0b1101011#7, .none⟩
  | .seg6 => ⟨.seg 0b1101111#7, .none⟩
  | .seg7 => ⟨.seg 0b1010010#7, .none⟩
  | .seg8 => ⟨.seg 0b1111111#7, .none⟩
  | .seg9 => ⟨.seg 0b1111011#7, .none⟩
  | .segA => ⟨.seg 0b1111110#7, .none⟩
  | .segU => ⟨.seg 0b0000111#7, .none⟩
  | .segT => ⟨.seg 0b0101101#7, .none⟩
  | .segO => ⟨.seg 0b0001111#7, .none⟩
  | .segL => ⟨.seg 0b0100101#7, .none⟩
  | .segE => ⟨.seg 0b1101101#7, .none⟩
  | .segF => ⟨.seg 0b1101100#7, .none⟩
  | .segDash => ⟨.seg 0b0001000#7, .none⟩
  | .segBlank c => ⟨.seg c, .none⟩
  | .outOk => ⟨.out 0b00#2, .none⟩
  | .outOutOfRange => ⟨.out 0b01#2, .none⟩
  | .outMalformed => ⟨.out 0b10#2, .none⟩
  | .outRefused r => ⟨.out 0b11#2, .reason r⟩

/-- The operand of zeros that an `op` code takes: the empty sequence, with variant code 000 where one goes beside it. -/
def zeroOperand (c : BitVec 3) : Operand :=
  match c.toNat with
  | 2 | 3 => .symbols []
  | 4 => .symbolsVariant [] 0#3
  | _ => .bytes []

/-- The request whose code is the number `w`, as the opcode table numbers a pattern: the width of the word names the
format, 8 bits SEL8, 7 bits SEG7, 3 bits OP3, 2 bits OUT2 (log 10). VAR3 shares OP3's width and cannot be named so. -/
def tableRequest (nbits w : Nat) : Option Request :=
  if 2 ^ nbits ≤ w then none
  else match nbits with
  | 8 => some ⟨.sel (BitVec.ofNat 8 w), .none⟩
  | 7 => some ⟨.seg (BitVec.ofNat 7 w), .none⟩
  | 3 => some ⟨.op (BitVec.ofNat 3 w), zeroOperand (BitVec.ofNat 3 w)⟩
  | 2 => some ⟨.out (BitVec.ofNat 2 w), if w = 3 then .reason 0#2 else .none⟩
  | _ => none

/-- The instruction the decoder reads from a word of `nbits` bits. -/
def decodeTableWord (nbits w : Nat) : Option Instr :=
  match tableRequest nbits w with
  | some r => (decode r).toOption
  | none => none

end Sys2Proof
end

