-- ==== Sys2Proof/Machine/State.lean ====
section
/-! DEFINITION. The state of the block, as plain data: the session register VAR with its valid bit (10_state.md R20),
the block's open parameters (00_scope.md R7), and the two ports through which the host asks and is answered. -/

namespace Sys2Proof.Machine

/-- One cell of the display (30_encoding.md R78): marker, canonical code, glyph (`none` is blank). -/
structure Cell where
  marker : Bool
  code   : SegCode
  glyph  : Option Glyph
deriving DecidableEq, Repr

/-- The result of DIGDEC (43_digit_decoder.md R128). -/
structure Digits where
  cells   : Vector Cell 4
  display : Text
deriving DecidableEq, Repr

/-- The result of ANNDEC (44_annotation_decoder.md R140, R153). -/
structure Annotations where
  fpos      : List Nat
  upos      : List Nat
  functions : List Text
  units     : List Text
deriving DecidableEq, Repr

/-- DecodedReading (10_state.md R35): `display` is in `digits`, `functions` and `units` in `notes`, with the cells and
the position lists beside them (45_frame_decode.md R172). -/
structure Reading where
  digits  : Digits
  notes   : Annotations
  variant : DeviceVariant
deriving DecidableEq, Repr

/-- What an operation returns with the outcome Ok (30_encoding.md R70, R78). -/
inductive Result where
  /-- Ok with no result field: outcome code 00 standing alone (row OUT_OK, log 8) -/
  | none
  /-- DEOBF: L bytes -/
  | bytes (b : List Byte)
  /-- BITREV: N symbols -/
  | stream (S : Bits)
  /-- VDET, VSETUP and the look-ups of a selector pattern or a DeviceVariant code -/
  | variant (v : DeviceVariant)
  /-- DIGDEC -/
  | digits (d : Digits)
  /-- ANNDEC -/
  | annotations (a : Annotations)
  /-- DECODE -/
  | reading (r : Reading)
  /-- a look-up in SEG_ROM -/
  | glyph (g : Option Glyph)
deriving DecidableEq, Repr

/-- The outcome of an operation (00_scope.md R11). Only Ok carries a result (60_exceptions.md R196). -/
inductive Reply where
  | ok (r : Result)
  | err (e : HardError)
  | refused (r : RefusalReason)
deriving DecidableEq, Repr

/-- The state. -/
structure State where
  /-- VAR, the held DeviceVariant (10_state.md R20). -/
  var      : DeviceVariant
  /-- VAR_VALID: whether VAR holds a detected variant (10_state.md R20). -/
  varValid : Bool
  /-- The block's open parameters, written by no operation (00_scope.md R7, 10_state.md R26; log 5). -/
  params   : Params
  /-- What the host asks next, in order (20_memory.md R49; log 2). The model's own field. -/
  requests : List HostInput
  /-- What the last step returned (00_scope.md R11; log 3). The model's own field, read by no operation. -/
  reply    : Option Reply
  /-- How many resets there were: names the free value each leaves in VAR (log 1). The model's own field. -/
  resets   : Nat
deriving DecidableEq, Repr

/-- The reasons the machine stops. -/
inductive Fault where
  /-- Raised by `step` where the host presents an operand of another kind than the code's row takes (for example
  symbols for DEOBF). The spec describes no such request and gives it no effect, so the machine is stuck. Safe: it
  makes claims unprovable, never false ones provable (log 9). -/
  | noSuchRequest (r : Reject)
deriving DecidableEq, Repr

/-- The reasons an instruction has no meaning in the model. -/
inductive Refusal where
  /-- Raised by an arm of `exec` whose instruction has no meaning yet; no arm raises it. Safe. (The block's own
  refusals, 60_exceptions.md R194, are outcomes on the result port: `Reply.refused`.) -/
  | notModelled (mnemonic : String)
deriving DecidableEq, Repr

/-- The block just after reset, with given parameters: VAR_VALID is 0 and VAR unspecified (10_state.md R36), nothing
asked and nothing answered. -/
def State.resetWith (p : Params) : State where
  var      := Config.freeVar 0
  varValid := false
  params   := p
  requests := []
  reply    := none
  resets   := 1

/-- The block just after reset, with parameters nothing is known of but their laws. -/
def State.reset : State := State.resetWith Config.params

end Sys2Proof.Machine
end

