-- ==== Sys2Proof/Machine/Operands.lean ====
section
/-! DEFINITION. How operands are read: bytes as symbols, windows of a stream, look-ups by pattern, and the codes of
variants (20_memory.md, 30_encoding.md section 4). -/

namespace Sys2Proof.Machine

/-- The number of a symbol string, first character most significant (how the opcode table numbers a pattern). -/
def bitsToNum (b : Bits) : Nat := b.foldl (fun acc x => 2 * acc + x.toNat) 0

/-- The pattern of width `n` that a symbol string writes. -/
def bitsPattern (n : Nat) (b : Bits) : BitVec n := BitVec.ofNat n (bitsToNum b)

/-- The symbol string of a pattern, first character first. -/
def patternBits {n : Nat} (p : BitVec n) : Bits := (List.range n).map p.getMsbD

/-- The same function on each of the four windows or cells. -/
def mapFour {α β : Type} (f : α → β) (v : Vector α 4) : Vector β 4 := #v[f v[0], f v[1], f v[2], f v[3]]

/-- `rev8(b)`: the 8 symbols of a byte, least significant first (41_bit_normalizer.md R101). -/
def rev8 (b : Byte) : Bits := (List.range 8).map b.getLsbD

/-- The symbol `W[j]` of a string. Positions beyond the end are never read: every reader bound-checks first
(20_memory.md R44). -/
def sym (w : Bits) (j : Nat) : Bool := w.getD j false

/-- The `n` symbols from address `a` (fewer where the stream ends). -/
def window (S : Bits) (a n : Nat) : Bits := (S.drop a).take n

/-- `MemRead(a, n)` (20_memory.md R44): no wrap-around. -/
def memRead (S : Bits) (a n : Nat) : Except HardError Bits :=
  if S.length < a + n then .error .malformedFrame else .ok (window S a n)

/-- VSEL: the variant of an 8-symbol pattern, Unknown where it is not listed (42_variant_detector.md R111). -/
def vsel (w : BitVec 8) : DeviceVariant := (literals.selectors.lookup w).getD .unknown

/-- SEG_ROM: the glyph at a SegmentCode, `none` for blank (10_state.md R27, 43_digit_decoder.md R124, R125). -/
def segLookup (p : Params) (c : SegCode) : Option Glyph := p.segRom[c.toNat]'c.isLt

/-- The variant of a 3-bit code; codes 101, 110 and 111 are reserved (30_encoding.md R75). -/
def variantOfCode (c : BitVec 3) : Option DeviceVariant :=
  match c.toNat with
  | 0 => some .unknown
  | 1 => some .variant1
  | 2 => some .variant2
  | 3 => some .variant3
  | 4 => some .variant4
  | _ => none

/-- The reason that a 2-bit code names (30_encoding.md R76). -/
def reasonOfCode (c : BitVec 2) : RefusalReason :=
  match c.toNat with
  | 0 => .variantNotSet
  | 1 => .reservedOp
  | 2 => .reservedVariantCode
  | _ => .overCapacity

end Sys2Proof.Machine
end

