-- ==== Sys2Proof/Machine/Ops.lean ====
section
/-! DEFINITION. The shared operations on the state: ending an operation (Ok, hard error, refusal), the capacity check,
writing the session register, the reset input, and the one-step look-ups of the four code families (log 8). -/

namespace Sys2Proof.Machine

/-- The four named fields of DecodedReading (10_state.md R35). -/
def Reading.display (r : Reading) : Text := r.digits.display
def Reading.functions (r : Reading) : List Text := r.notes.functions
def Reading.units (r : Reading) : List Text := r.notes.units

/-- End with outcome Ok and a result (30_encoding.md R76, code 00). -/
def State.answer (s : State) (r : Result) : State := { s with reply := some (.ok r) }

/-- Entry of a hard error (60_exceptions.md R196): the outcome is returned with no result field; nothing is saved, no
mode changes, control goes nowhere and no state of the block is written. There is nothing to return from (R198). -/
def State.raise (s : State) (e : HardError) : State := { s with reply := some (.err e) }

/-- End as refused, with the reason (60_exceptions.md R194): no result, no state written. -/
def State.refuse (s : State) (r : RefusalReason) : State := { s with reply := some (.refused r) }

/-- End an operation with what its stage answered. -/
def State.finish (s : State) (x : Except HardError Result) : State :=
  match x with
  | .ok r => s.answer r
  | .error e => s.raise e

/-- A request whose operand of `n` bytes or symbols is over the capacity (CAP bytes, 8 x CAP symbols) is refused before anything else is looked at
(30_encoding.md R71, 60_exceptions.md R195); otherwise `k` is what happens. -/
def State.withinCap (s : State) (n cap : Nat) (k : State) : State :=
  if cap < n then s.refuse .overCapacity else k

/-- VAR <- v ; VAR_VALID <- 1 (45_frame_decode.md R176). -/
def State.holdVariant (s : State) (v : DeviceVariant) : State := { s with var := v, varValid := true }

/-- The reset input (70_reset_and_hazards.md R220): VAR_VALID <- 0, VAR unspecified (a fresh free value, log 1), no
outcome kept; the constant tables stay, and so does what the host still asks. -/
def State.applyReset (s : State) : State :=
  { s with var := Config.freeVar s.resets, varValid := false, reply := none, resets := s.resets + 1 }

/-- A look-up of a selector pattern in VSEL (42_variant_detector.md R111, R114). Writes no register (R110). -/
def State.lookSelector (s : State) (w : BitVec 8) : State := s.answer (.variant (vsel w))

/-- The reading of a DeviceVariant code; a reserved one is refused (30_encoding.md R75, R80). -/
def State.lookVariant (s : State) (c : BitVec 3) : State :=
  match variantOfCode c with
  | some v => s.answer (.variant v)
  | none => s.refuse .reservedVariantCode

/-- A look-up in the block's SEG_ROM (43_digit_decoder.md R124, R125). -/
def State.lookSegment (s : State) (c : SegCode) : State := s.answer (.glyph (segLookup s.params c))

/-- The end of an operation with a given outcome code, and the reason beside code 11 (30_encoding.md R76). -/
def State.endWith (s : State) (c : BitVec 2) (reason : BitVec 2) : State :=
  match c.toNat with
  | 0 => s.answer .none
  | 1 => s.raise .outOfRange
  | 2 => s.raise .malformedFrame
  | _ => s.refuse (reasonOfCode reason)

end Sys2Proof.Machine
end

