-- ==== Sys2Proof/Machine/Flags.lean ====
section
/-! DEFINITION. The annotation flags of a frame: the two flavours, their windows, which positions are of class
function, the scan, and the labels (44_annotation_decoder.md). The block has no condition flags (10_state.md R23). -/

namespace Sys2Proof.Machine

/-- The two table shapes (44_annotation_decoder.md section 1). -/
inductive Flavour where
  | A | B
deriving DecidableEq, Repr

/-- The flavour a variant selects; Unknown falls back to flavour A (R141). -/
def flavourOf : DeviceVariant → Flavour
  | .variant2 => .B
  | .variant1 | .variant3 | .variant4 | .unknown => .A

/-- The label window of a flavour, half open (R145, R149). -/
def labelWindow : Flavour → Nat × Nat
  | .A => literals.lblA
  | .B => literals.lblB

/-- The function positions of a flavour's label window (R146, R150). -/
def funcPositions : Flavour → List Nat
  | .A => literals.funcA
  | .B => literals.funcB

/-- The smallest stream a flavour accepts: its label window must fit (R143). -/
def annNeed (f : Flavour) : Nat := (labelWindow f).2

/-- The positions of a half-open window, descending. -/
def descending (w : Nat × Nat) : List Nat := (List.range' w.1 (w.2 - w.1)).reverse

/-- The scan of the 3-symbol function window, the same in both flavours: every set bit is of class function, and they
stand first (R144). -/
def scanFn3 (S : Bits) : List Nat → List Nat → List Nat
  | [], fpos => fpos
  | p :: ps, fpos => scanFn3 S ps (if sym S p then fpos ++ [p] else fpos)

/-- The scan of the label window: a set bit joins `fpos` or `upos` by its position's class (R142, R147, R151). -/
def scanLabels (S : Bits) (f : Flavour) : List Nat → List Nat × List Nat → List Nat × List Nat
  | [], acc => acc
  | p :: ps, (fpos, upos) =>
    if sym S p then
      if p ∈ funcPositions f then scanLabels S f ps (fpos ++ [p], upos)
      else scanLabels S f ps (fpos, upos ++ [p])
    else scanLabels S f ps (fpos, upos)

/-- ANN_A and ANN_B (R147, R151): `(fpos, upos)`. -/
def scan (S : Bits) (f : Flavour) : List Nat × List Nat :=
  scanLabels S f (descending (labelWindow f)) (scanFn3 S (descending literals.fn3) [], [])

/-- The 3-symbol function table of a flavour. -/
def fn3Table (p : Params) : Flavour → Vector Text 3
  | .A => p.fn3A
  | .B => p.fn3B

/-- The label table of a flavour, lowest position first. -/
def labelTable (p : Params) : Flavour → List Text
  | .A => p.lblA.toList
  | .B => p.lblB.toList

/-- `label(p)` (R152): the 3-symbol table for the positions of the function window, the label table for those of the
label window. Every position that a scan visits has an entry. -/
def label (t : Params) (f : Flavour) (p : Nat) : Text :=
  if p < literals.fn3.2 then (fn3Table t f).toList.getD (p - literals.fn3.1) []
  else (labelTable t f).getD (p - (labelWindow f).1) []

/-- The labels of a position list in order; an empty label appends nothing (R152). -/
def labels (t : Params) (f : Flavour) (ps : List Nat) : List Text :=
  (ps.map (label t f)).filter fun l => !l.isEmpty

end Sys2Proof.Machine
end

