-- ==== Sys2Proof/Machine/Stages.lean ====
section
/-! DEFINITION. The five stages and the composite uses of them, as pure functions of operands and parameters
(files 40 to 45 of spec/). -/

namespace Sys2Proof.Machine

/-- KEYLEN (00_scope.md R6). -/
def keyLen : Nat := literals.key.length

/-- DEOBF (40_deobfuscator.md R91). The length test comes first; the key is not cycled (R92). -/
def deobf (raw : List Byte) : Except HardError (List Byte) :=
  if keyLen < raw.length then .error .outOfRange
  else .ok (List.zipWith (fun r k => r ^^^ k) raw literals.key)

/-- BITREV (41_bit_normalizer.md R102). -/
def bitrev (p : List Byte) : Bits := p.flatMap rev8

/-- VDET (42_variant_detector.md R112). -/
def vdet (S : Bits) : Except HardError DeviceVariant :=
  match memRead S literals.selAt.1 literals.selAt.2 with
  | .error e => .error e
  | .ok w => .ok (vsel (bitsPattern 8 w))

/-- The canonical SegmentCode of a digit window: a gather by the permutation (43_digit_decoder.md R123). -/
def segCode (w : Bits) : SegCode := bitsPattern 7 (literals.perm.map (sym w))

/-- One slice of DIGDEC: the cell of the digit window at address `o` (R122 to R125). -/
def cellAt (p : Params) (S : Bits) (o : Nat) : Cell :=
  let w := window S o 8
  { marker := sym w 0, code := segCode w, glyph := segLookup p (segCode w) }

/-- The character a Glyph renders as (10_state.md R34). -/
def glyphChar : Glyph → Char
  | .d0 => '0' | .d1 => '1' | .d2 => '2' | .d3 => '3' | .d4 => '4'
  | .d5 => '5' | .d6 => '6' | .d7 => '7' | .d8 => '8' | .d9 => '9'
  | .capA => 'A' | .smallU => 'u' | .smallT => 't' | .smallO => 'o'
  | .capL => 'L' | .capE => 'E' | .capF => 'F' | .dash => '-'

/-- The markers' characters: the minus sign for window 1, the decimal point for windows 2 to 4 (R126). -/
def markChars : Vector Char 4 := #v['-', '.', '.', '.']

/-- `text_k` (R126): the marker's character before the glyph's; blank renders as nothing. -/
def cellText (mark : Char) (c : Cell) : Text :=
  (if c.marker then [mark] else []) ++ (c.glyph.map glyphChar).toList

/-- The display string (R127): `"0"` only where all four texts are empty. -/
def displayOf (cells : Vector Cell 4) : Text :=
  let t := cellText markChars[0] cells[0] ++ cellText markChars[1] cells[1] ++ cellText markChars[2] cells[2] ++
    cellText markChars[3] cells[3]
  if t = [] then ['0'] else t

/-- The smallest stream DIGDEC accepts: the highest address read is 59 (R121). -/
def digNeed : Nat := literals.digitAt[3] + 8

/-- DIGDEC (R128). -/
def digdec (p : Params) (S : Bits) : Except HardError Digits :=
  if S.length < digNeed then .error .malformedFrame
  else
    let cells := mapFour (cellAt p S) literals.digitAt
    .ok { cells := cells, display := displayOf cells }

/-- ANNDEC for a DeviceVariant (44_annotation_decoder.md R153). -/
def anndec (p : Params) (S : Bits) (v : DeviceVariant) : Except HardError Annotations :=
  let f := flavourOf v
  if S.length < annNeed f then .error .malformedFrame
  else
    let pos := scan S f
    .ok { fpos := pos.1, upos := pos.2, functions := labels p f pos.1, units := labels p f pos.2 }

/-- DecodeFrame (45_frame_decode.md R172): the bound of ANNDEC, the larger one, is tested before either decoder
produces anything (R175); VDET is not called and `variant` is v as given (R173). -/
def decodeFrame (p : Params) (raw : List Byte) (v : DeviceVariant) : Except HardError Reading :=
  match deobf raw with
  | .error e => .error e
  | .ok plain =>
    let S := bitrev plain
    if S.length < annNeed (flavourOf v) then .error .malformedFrame
    else match digdec p S, anndec p S v with
      | .ok d, .ok a => .ok { digits := d, notes := a, variant := v }
      | .error e, _ => .error e
      | _, .error e => .error e

/-- What VSETUP detects: VDET of BITREV of DEOBF (45_frame_decode.md R176). -/
def detect (raw : List Byte) : Except HardError DeviceVariant :=
  match deobf raw with
  | .error e => .error e
  | .ok plain => vdet (bitrev plain)

end Sys2Proof.Machine
end

