-- ==== Sys2Proof/Machine/Operations.lean ====
section
/-! DEFINITION. The meanings of the operations a host requests, rows OP3 of the opcode table (30_encoding.md R70). Each
checks in the order of 60_exceptions.md R195 and writes no register but VSETUP's. -/

namespace Sys2Proof.Machine

/-- DEOBF (40_deobfuscator.md R91). -/
def execDeobf (raw : List Byte) (s : State) : Host.Outcome State Fault Refusal :=
  .next (s.withinCap raw.length s.params.cap (s.finish ((deobf raw).map .bytes)))

/-- BITREV (41_bit_normalizer.md R102): total, no length bound of its own (R104). -/
def execBitrev (p : List Byte) (s : State) : Host.Outcome State Fault Refusal :=
  .next (s.withinCap p.length s.params.cap (s.answer (.stream (bitrev p))))

/-- VDET standing alone: writes neither VAR nor VAR_VALID (42_variant_detector.md R110, R112). -/
def execVdet (S : Bits) (s : State) : Host.Outcome State Fault Refusal :=
  .next (s.withinCap S.length (8 * s.params.cap) (s.finish ((vdet S).map .variant)))

/-- DIGDEC (43_digit_decoder.md R128). -/
def execDigdec (S : Bits) (s : State) : Host.Outcome State Fault Refusal :=
  .next (s.withinCap S.length (8 * s.params.cap) (s.finish ((digdec s.params S).map .digits)))

/-- ANNDEC: a reserved variant code is refused before the windows are checked (44_annotation_decoder.md R153). -/
def execAnndec (S : Bits) (v : BitVec 3) (s : State) : Host.Outcome State Fault Refusal :=
  .next (s.withinCap S.length (8 * s.params.cap)
    (match variantOfCode v with
    | none => s.refuse .reservedVariantCode
    | some v => s.finish ((anndec s.params S v).map .annotations)))

/-- DECODE: refused while no variant is held, else DecodeFrame with VAR (45_frame_decode.md R174). -/
def execDecode (raw : List Byte) (s : State) : Host.Outcome State Fault Refusal :=
  .next (s.withinCap raw.length s.params.cap
    (if s.varValid then s.finish ((decodeFrame s.params raw s.var).map .reading)
     else s.refuse .variantNotSet))

/-- VSETUP: holds what it detects, on Ok only (45_frame_decode.md R176); it overwrites a held variant (R177). -/
def execVsetup (raw : List Byte) (s : State) : Host.Outcome State Fault Refusal :=
  .next (s.withinCap raw.length s.params.cap
    (match detect raw with
    | .ok v => (s.holdVariant v).answer (.variant v)
    | .error e => s.raise e))

/-- op = 111: refused, whatever the operand (30_encoding.md R80; first of the checks of R195). -/
def execReservedOp (_a : Operand) (s : State) : Host.Outcome State Fault Refusal :=
  .next (s.refuse .reservedOp)

end Sys2Proof.Machine
end

