-- ==== Sys2Proof/Machine/OutcomeCode.lean ====
section
/-! DEFINITION. The meanings of the outcome codes, rows OUT2 of the opcode table: the end of an operation with that code at
the outcome port (30_encoding.md R76; log 8). -/

namespace Sys2Proof.Machine

/-- OUT_OK: code 00 (R76). -/
def execOutOk (s : State) : Host.Outcome State Fault Refusal :=
  .next (s.endWith 0b00#2 0b00#2)

/-- OUT_OUTOFRANGE: code 01 (R76, R191). -/
def execOutOutOfRange (s : State) : Host.Outcome State Fault Refusal :=
  .next (s.endWith 0b01#2 0b00#2)

/-- OUT_MALFORMED: code 10 (R76, R192). -/
def execOutMalformed (s : State) : Host.Outcome State Fault Refusal :=
  .next (s.endWith 0b10#2 0b00#2)

/-- OUT_REFUSED: code 11 with the reason beside it (R76, R194). -/
def execOutRefused (r : BitVec 2) (s : State) : Host.Outcome State Fault Refusal :=
  .next (s.endWith 0b11#2 r)

end Sys2Proof.Machine
end

