-- ==== Sys2Proof/Machine/Segment.lean ====
section
/-! DEFINITION. The meanings of the segment codes, rows SEG7 of the opcode table: one look-up of the row's address in the
block's SEG_ROM each (43_digit_decoder.md R124, R125). The glyph a row names is what a block with SEG_ROM_DEFAULT
answers (10_state.md R28; logs 6 and 8). -/

namespace Sys2Proof.Machine

/-- SEG_0: address 1110111 (R28). -/
def execSeg0 (s : State) : Host.Outcome State Fault Refusal :=
  .next (s.lookSegment 0b1110111#7)

/-- SEG_1: address 0010010 (R28). -/
def execSeg1 (s : State) : Host.Outcome State Fault Refusal :=
  .next (s.lookSegment 0b0010010#7)

/-- SEG_2: address 1011101 (R28). -/
def execSeg2 (s : State) : Host.Outcome State Fault Refusal :=
  .next (s.lookSegment 0b1011101#7)

/-- SEG_3: address 1011011 (R28). -/
def execSeg3 (s : State) : Host.Outcome State Fault Refusal :=
  .next (s.lookSegment 0b1011011#7)

/-- SEG_4: address 0111010 (R28). -/
def execSeg4 (s : State) : Host.Outcome State Fault Refusal :=
  .next (s.lookSegment 0b0111010#7)

/-- SEG_5: address 1101011 (R28). -/
def execSeg5 (s : State) : Host.Outcome State Fault Refusal :=
  .next (s.lookSegment 0b1101011#7)

/-- SEG_6: address 1101111 (R28). -/
def execSeg6 (s : State) : Host.Outcome State Fault Refusal :=
  .next (s.lookSegment 0b1101111#7)

/-- SEG_7: address 1010010 (R28). -/
def execSeg7 (s : State) : Host.Outcome State Fault Refusal :=
  .next (s.lookSegment 0b1010010#7)

/-- SEG_8: address 1111111 (R28). -/
def execSeg8 (s : State) : Host.Outcome State Fault Refusal :=
  .next (s.lookSegment 0b1111111#7)

/-- SEG_9: address 1111011 (R28). -/
def execSeg9 (s : State) : Host.Outcome State Fault Refusal :=
  .next (s.lookSegment 0b1111011#7)

/-- SEG_A: address 1111110 (R28). -/
def execSegA (s : State) : Host.Outcome State Fault Refusal :=
  .next (s.lookSegment 0b1111110#7)

/-- SEG_u: address 0000111 (R28). -/
def execSegU (s : State) : Host.Outcome State Fault Refusal :=
  .next (s.lookSegment 0b0000111#7)

/-- SEG_t: address 0101101 (R28). -/
def execSegT (s : State) : Host.Outcome State Fault Refusal :=
  .next (s.lookSegment 0b0101101#7)

/-- SEG_o: address 0001111 (R28). -/
def execSegO (s : State) : Host.Outcome State Fault Refusal :=
  .next (s.lookSegment 0b0001111#7)

/-- SEG_L: address 0100101 (R28). -/
def execSegL (s : State) : Host.Outcome State Fault Refusal :=
  .next (s.lookSegment 0b0100101#7)

/-- SEG_E: address 1101101 (R28). -/
def execSegE (s : State) : Host.Outcome State Fault Refusal :=
  .next (s.lookSegment 0b1101101#7)

/-- SEG_F: address 1101100 (R28). -/
def execSegF (s : State) : Host.Outcome State Fault Refusal :=
  .next (s.lookSegment 0b1101100#7)

/-- SEG_dash: address 0001000 (R28). -/
def execSegDash (s : State) : Host.Outcome State Fault Refusal :=
  .next (s.lookSegment 0b0001000#7)

/-- SEG_BLANK: any address with no row of its own; blank in the default table, not an error (R28, R125). -/
def execSegBlank (c : SegCode) (s : State) : Host.Outcome State Fault Refusal :=
  .next (s.lookSegment c)

end Sys2Proof.Machine
end

