-- ==== Sys2Proof/Machine/Selector.lean ====
section
/-! DEFINITION. The meanings of the selector patterns, rows SEL8 of the opcode table: one look-up in VSEL each
(42_variant_detector.md R111; log 8). -/

namespace Sys2Proof.Machine

/-- SEL_VARIANT1: pattern 11000000 (R111). -/
def execSelVariant1 (s : State) : Host.Outcome State Fault Refusal :=
  .next (s.lookSelector 0b11000000#8)

/-- SEL_VARIANT2: pattern 01000000 (R111). -/
def execSelVariant2 (s : State) : Host.Outcome State Fault Refusal :=
  .next (s.lookSelector 0b01000000#8)

/-- SEL_VARIANT3: pattern 10000000 (R111). -/
def execSelVariant3 (s : State) : Host.Outcome State Fault Refusal :=
  .next (s.lookSelector 0b10000000#8)

/-- SEL_VARIANT4: pattern 00100000 (R111). -/
def execSelVariant4 (s : State) : Host.Outcome State Fault Refusal :=
  .next (s.lookSelector 0b00100000#8)

/-- SEL_UNKNOWN: any of the other 252 patterns; Unknown is a value, not an error (R111, R114). -/
def execSelUnknown (w : BitVec 8) (s : State) : Host.Outcome State Fault Refusal :=
  .next (s.lookSelector w)

end Sys2Proof.Machine
end

