-- ==== Sys2Proof/Machine/VariantCode.lean ====
section
/-! DEFINITION. The meanings of the DeviceVariant codes, rows VAR3 of the opcode table: one reading of a code each
(30_encoding.md R75, R80; log 8). -/

namespace Sys2Proof.Machine

/-- VARCODE_UNKNOWN: code 000 (R75). -/
def execVarcodeUnknown (s : State) : Host.Outcome State Fault Refusal :=
  .next (s.lookVariant 0b000#3)

/-- VARCODE_VARIANT1: code 001 (R75). -/
def execVarcodeVariant1 (s : State) : Host.Outcome State Fault Refusal :=
  .next (s.lookVariant 0b001#3)

/-- VARCODE_VARIANT2: code 010 (R75). -/
def execVarcodeVariant2 (s : State) : Host.Outcome State Fault Refusal :=
  .next (s.lookVariant 0b010#3)

/-- VARCODE_VARIANT3: code 011 (R75). -/
def execVarcodeVariant3 (s : State) : Host.Outcome State Fault Refusal :=
  .next (s.lookVariant 0b011#3)

/-- VARCODE_VARIANT4: code 100 (R75). -/
def execVarcodeVariant4 (s : State) : Host.Outcome State Fault Refusal :=
  .next (s.lookVariant 0b100#3)

/-- VARCODE_RESERVED_101: refused (R80). -/
def execVarcodeReserved101 (s : State) : Host.Outcome State Fault Refusal :=
  .next (s.lookVariant 0b101#3)

/-- VARCODE_RESERVED_110: refused (R80). -/
def execVarcodeReserved110 (s : State) : Host.Outcome State Fault Refusal :=
  .next (s.lookVariant 0b110#3)

/-- VARCODE_RESERVED_111: refused (R80). -/
def execVarcodeReserved111 (s : State) : Host.Outcome State Fault Refusal :=
  .next (s.lookVariant 0b111#3)

end Sys2Proof.Machine
end

