-- ==== Sys2Proof/Machine/Dispatch.lean ====
section
/-! DEFINITION. The dispatch: one arm per instruction, one direct call of its meaning. -/

namespace Sys2Proof.Machine

def exec (i : Instr) (s : State) : Host.Outcome State Fault Refusal :=
  match i with
  | .deobf raw => Sys2Proof.Machine.execDeobf raw s
  | .bitrev p => Sys2Proof.Machine.execBitrev p s
  | .vdet S => Sys2Proof.Machine.execVdet S s
  | .digdec S => Sys2Proof.Machine.execDigdec S s
  | .anndec S v => Sys2Proof.Machine.execAnndec S v s
  | .decode raw => Sys2Proof.Machine.execDecode raw s
  | .vsetup raw => Sys2Proof.Machine.execVsetup raw s
  | .reservedOp a => Sys2Proof.Machine.execReservedOp a s
  | .selVariant1 => Sys2Proof.Machine.execSelVariant1 s
  | .selVariant2 => Sys2Proof.Machine.execSelVariant2 s
  | .selVariant3 => Sys2Proof.Machine.execSelVariant3 s
  | .selVariant4 => Sys2Proof.Machine.execSelVariant4 s
  | .selUnknown w => Sys2Proof.Machine.execSelUnknown w s
  | .varcodeUnknown => Sys2Proof.Machine.execVarcodeUnknown s
  | .varcodeVariant1 => Sys2Proof.Machine.execVarcodeVariant1 s
  | .varcodeVariant2 => Sys2Proof.Machine.execVarcodeVariant2 s
  | .varcodeVariant3 => Sys2Proof.Machine.execVarcodeVariant3 s
  | .varcodeVariant4 => Sys2Proof.Machine.execVarcodeVariant4 s
  | .varcodeReserved101 => Sys2Proof.Machine.execVarcodeReserved101 s
  | .varcodeReserved110 => Sys2Proof.Machine.execVarcodeReserved110 s
  | .varcodeReserved111 => Sys2Proof.Machine.execVarcodeReserved111 s
  | .seg0 => Sys2Proof.Machine.execSeg0 s
  | .seg1 => Sys2Proof.Machine.execSeg1 s
  | .seg2 => Sys2Proof.Machine.execSeg2 s
  | .seg3 => Sys2Proof.Machine.execSeg3 s
  | .seg4 => Sys2Proof.Machine.execSeg4 s
  | .seg5 => Sys2Proof.Machine.execSeg5 s
  | .seg6 => Sys2Proof.Machine.execSeg6 s
  | .seg7 => Sys2Proof.Machine.execSeg7 s
  | .seg8 => Sys2Proof.Machine.execSeg8 s
  | .seg9 => Sys2Proof.Machine.execSeg9 s
  | .segA => Sys2Proof.Machine.execSegA s
  | .segU => Sys2Proof.Machine.execSegU s
  | .segT => Sys2Proof.Machine.execSegT s
  | .segO => Sys2Proof.Machine.execSegO s
  | .segL => Sys2Proof.Machine.execSegL s
  | .segE => Sys2Proof.Machine.execSegE s
  | .segF => Sys2Proof.Machine.execSegF s
  | .segDash => Sys2Proof.Machine.execSegDash s
  | .segBlank c => Sys2Proof.Machine.execSegBlank c s
  | .outOk => Sys2Proof.Machine.execOutOk s
  | .outOutOfRange => Sys2Proof.Machine.execOutOutOfRange s
  | .outMalformed => Sys2Proof.Machine.execOutMalformed s
  | .outRefused r => Sys2Proof.Machine.execOutRefused r s

end Sys2Proof.Machine
end

