-- ==== Sys2Proof/Machine/Step.lean ====
section
/-! DEFINITION. One step: what the host asks next, done whole (20_memory.md R49, 70_reset_and_hazards.md R231). -/

namespace Sys2Proof.Machine

/-- One step takes the host's next input. Nothing asked: the block does nothing and returns nothing
(70_reset_and_hazards.md R222). RESET: R220. A request: the instruction it decodes to is executed, and the request is
taken from the port; signals that are no request stop the machine (log 9). -/
def step (s : State) : Host.Outcome State Fault Refusal :=
  match s.requests with
  | [] => .next { s with reply := none }
  | .reset :: rest => .next { s with requests := rest }.applyReset
  | .request r :: rest =>
    match decode r with
    | .ok i => exec i { s with requests := rest }
    | .error e => .fault (.noSuchRequest e)

/-- `s` with the request that a table word of `nbits` bits names as the host's next input. -/
def State.withFetchWord (s : State) (nbits w : Nat) : State :=
  match tableRequest nbits w with
  | some r => { s with requests := .request r :: s.requests.tail }
  | none => s

end Sys2Proof.Machine
end

