-- ==== Sys2Proof/Machine/Ports.lean ====
section
/-! DEFINITION. The result port: the numeric codes of 30_encoding.md R75 to R77 and the presentation of a reply (R78). -/

namespace Sys2Proof.Machine

/-- The 3-bit DeviceVariant code (30_encoding.md R75). -/
def variantCode : DeviceVariant → BitVec 3
  | .unknown => 0b000#3
  | .variant1 => 0b001#3
  | .variant2 => 0b010#3
  | .variant3 => 0b011#3
  | .variant4 => 0b100#3

/-- The 2-bit outcome code (R76). -/
def outcomeCode : Reply → BitVec 2
  | .ok _ => 0b00#2
  | .err .outOfRange => 0b01#2
  | .err .malformedFrame => 0b10#2
  | .refused _ => 0b11#2

/-- The 2-bit reason returned beside code 11 (R76). -/
def reasonCode : RefusalReason → BitVec 2
  | .variantNotSet => 0b00#2
  | .reservedOp => 0b01#2
  | .reservedVariantCode => 0b10#2
  | .overCapacity => 0b11#2

/-- The 5-bit Glyph code, 31 for blank (R77). -/
def glyphCode : Option Glyph → BitVec 5
  | some .d0 => 0#5 | some .d1 => 1#5 | some .d2 => 2#5 | some .d3 => 3#5 | some .d4 => 4#5
  | some .d5 => 5#5 | some .d6 => 6#5 | some .d7 => 7#5 | some .d8 => 8#5 | some .d9 => 9#5
  | some .capA => 10#5 | some .smallU => 11#5 | some .smallT => 12#5 | some .smallO => 13#5
  | some .capL => 14#5 | some .capE => 15#5 | some .capF => 16#5 | some .dash => 17#5
  | none => 31#5

/-- A position vector (R78): one bit per position 25 to 27 and 60 to 87. Bit `j` of `fn3` is position `25 + j` and bit
`j` of `lbl` is position `60 + j` (DESIGN CHOICE, log 11). -/
structure PosVec where
  fn3 : BitVec 3
  lbl : BitVec 28
deriving DecidableEq, Repr

/-- Whether a position's bit is set. -/
def PosVec.has (v : PosVec) (p : Nat) : Bool :=
  if p < 60 then v.fn3.getLsbD (p - 25) else v.lbl.getLsbD (p - 60)

/-- The vector of a position list. -/
def posVec (ps : List Nat) : PosVec where
  fn3 := BitVec.ofFnLE fun j : Fin 3 => decide (25 + j.val ∈ ps)
  lbl := BitVec.ofFnLE fun j : Fin 28 => decide (60 + j.val ∈ ps)

/-- The scan order in which a list is recovered from its vector: 27, 26, 25, then the label window descending
(44_annotation_decoder.md R152). -/
def recoverOrder : List Nat := descending literals.fn3 ++ descending literals.lblA

/-- The position list of a vector (R78). -/
def PosVec.positions (v : PosVec) : List Nat := recoverOrder.filter v.has

/-- A display cell at the port (R78). -/
structure PortCell where
  marker : Bool
  code   : SegCode
  glyph  : BitVec 5
deriving DecidableEq, Repr

def portCell (c : Cell) : PortCell := { marker := c.marker, code := c.code, glyph := glyphCode c.glyph }

/-- The result fields at the port (R78). A field is there only on Ok. -/
inductive PortFields where
  | none
  | bytes (L : Nat) (b : List Byte)
  | symbols (N : Nat) (S : Bits)
  | variant (v : BitVec 3)
  | digits (cells : Vector PortCell 4) (display : Text)
  | annotations (fvec uvec : PosVec) (functions units : List Text)
  | reading (cells : Vector PortCell 4) (display : Text) (fvec uvec : PosVec) (functions units : List Text) (v : BitVec 3)
  | glyph (g : BitVec 5)
deriving DecidableEq, Repr

/-- What the host sees of a reply. -/
structure PortReply where
  outcome : BitVec 2
  reason  : Option (BitVec 2)
  fields  : PortFields
deriving DecidableEq, Repr

def portFields : Result → PortFields
  | .none => .none
  | .bytes b => .bytes b.length b
  | .stream S => .symbols S.length S
  | .variant v => .variant (variantCode v)
  | .digits d => .digits (mapFour portCell d.cells) d.display
  | .annotations a => .annotations (posVec a.fpos) (posVec a.upos) a.functions a.units
  | .reading r =>
    .reading (mapFour portCell r.digits.cells) r.digits.display (posVec r.notes.fpos) (posVec r.notes.upos)
      r.notes.functions r.notes.units (variantCode r.variant)
  | .glyph g => .glyph (glyphCode g)

/-- The presentation of a reply (R76, R78): on any outcome other than Ok no result field is valid. -/
def present (r : Reply) : PortReply where
  outcome := outcomeCode r
  reason  := match r with | .refused why => some (reasonCode why) | _ => Option.none
  fields  := match r with | .ok x => portFields x | _ => .none

/-- The result port of a state, if the last step returned anything. -/
def State.port (s : State) : Option PortReply := s.reply.map present

/-- The 3 bits of VAR (10_state.md R20, 30_encoding.md R75). -/
def State.varBits (s : State) : BitVec 3 := variantCode s.var

end Sys2Proof.Machine
end

