-- ==== Sys2Proof/Safety.lean ====
section
/-! DEFINITION. What claims are stated in: a safe step, the trace of replies the host sees, and the invariant of the
machine. -/

namespace Sys2Proof

/-- The instruction that an input requests, if it requests one. -/
def HostInput.instr? : HostInput → Option Instr
  | .reset => none
  | .request r => (decode r).toOption

/-- The host's input that requests an instruction. -/
def HostInput.ofInstr (i : Instr) : HostInput := .request (encode i)

end Sys2Proof

namespace Sys2Proof.Machine

/-- A step that does not stop the machine. -/
def SafeStep (s : State) : Prop := ∃ t, step s = .next t

/-- What the host asks is RESET or a request with an operand of the kind its code takes (30_encoding.md R70, R71). -/
def Presentable : HostInput → Prop
  | .reset => True
  | .request r => ∃ i, decode r = .ok i

/-- What the host is answered in the first `n` steps, one entry a step, up to a stop. -/
def trace : Nat → State → List (Option Reply)
  | 0, _ => []
  | n + 1, s =>
    match step s with
    | .next t => t.reply :: trace n t
    | .fault _ => []
    | .refused _ => []

/-- The reply of an outcome of `exec` or `step`. -/
def replyOf : Host.Outcome State Fault Refusal → Option Reply
  | .next t => t.reply
  | .fault _ => none
  | .refused _ => none

/-- The display alphabet: the characters of the 18 Glyphs and the point (10_state.md R34, R35). -/
def displayAlphabet : List Char :=
  ['0', '1', '2', '3', '4', '5', '6', '7', '8', '9', 'A', 'u', 't', 'o', 'L', 'E', 'F', '-', '.']

/-- A display as 43_digit_decoder.md R129 says it is: 1 to 8 characters of the alphabet, rendered from its cells. -/
def Digits.Ok (d : Digits) : Prop :=
  1 ≤ d.display.length ∧ d.display.length ≤ 8 ∧ (∀ c ∈ d.display, c ∈ displayAlphabet) ∧ d.display = displayOf d.cells

/-- Annotations as 44_annotation_decoder.md R152 and R154 say they are: `upos` strictly descending, no position twice,
only positions of the two windows, no empty label. -/
def Annotations.Ok (a : Annotations) : Prop :=
  a.upos.Pairwise (· > ·) ∧ (a.fpos ++ a.upos).Nodup ∧
  (∀ p ∈ a.fpos, (25 ≤ p ∧ p < 28) ∨ (60 ≤ p ∧ p < 88)) ∧ (∀ p ∈ a.upos, 60 ≤ p ∧ p < 88) ∧
  (∀ l ∈ a.functions ++ a.units, l ≠ [])

/-- A result as the rules of its operation shape it. -/
def Result.Ok : Result → Prop
  | .none => True
  | .bytes b => b.length ≤ 20
  | .stream S => 8 ∣ S.length
  | .variant _ => True
  | .digits d => d.Ok
  | .annotations a => a.Ok
  | .reading r => r.digits.Ok ∧ r.notes.Ok
  | .glyph _ => True

/-- A reply as the rules shape it. -/
def Reply.Ok : Reply → Prop
  | .ok r => r.Ok
  | .err _ => True
  | .refused _ => True

/-- The invariant of the machine: the parameters obey the laws (10_state.md R27, R30, 30_encoding.md R71), and whatever stands
at the result port is shaped as the rules of its operation say. -/
def Inv (s : State) : Prop := s.params.Lawful ∧ ∀ r, s.reply = some r → r.Ok

end Sys2Proof.Machine
end

