-- ==== Sys2Proof/Certificates/Slice0/Obligations.lean ====
section
/-! DEFINITION. The statements for the provers. Each docstring names the rule of spec/ it formalises. Where a next state
is written `{ s with reply := … }`, the frame is stated with it: no other field changes, VAR, VAR_VALID and the
parameters among them. The block has no memory, no flags and no program counter (10_state.md R21 to R24). That a hard error
is such a next state is the spec's (60_exceptions.md R196, R198); that a refusal is one is DEDUCED (log 4), and the
statements that rest on it say so. -/

open Sys2Proof Sys2Proof.Machine

/-- R91: for L <= 20 byte `i` of the result is byte `i` of the operand XOR KEY[i]; L > 20 is OutOfRangeError, nothing
produced. -/
def Obligations.DeobfXorsEachByteWithItsKeyByte : Prop :=
  ∀ (s : State) (raw : List Byte), 21 ≤ s.params.cap → raw.length ≤ s.params.cap →
    (raw.length ≤ 20 → ∃ plain : List Byte,
      exec (.deobf raw) s = .next { s with reply := some (.ok (.bytes plain)) } ∧ plain.length = raw.length ∧
      ∀ (i : Nat) (x k : Byte), raw[i]? = some x →
        ([0x41, 0x21, 0x73, 0x55, 0xA2, 0xC1, 0x32, 0x71, 0x66, 0xAA, 0x3B, 0xD0, 0xE2, 0xA8, 0x33, 0x14, 0x20, 0x21, 0xAA,
          0xBB] : List Byte)[i]? = some k → plain[i]? = some (x ^^^ k)) ∧
    (20 < raw.length → exec (.deobf raw) s = .next { s with reply := some (.err .outOfRange) })

/-- R94: deobfuscating twice gives the operand back. -/
def Obligations.DeobfTwiceGivesTheOperandBack : Prop :=
  ∀ (s : State) (raw : List Byte), 21 ≤ s.params.cap → raw.length ≤ 20 →
    ∃ plain : List Byte, exec (.deobf raw) s = .next { s with reply := some (.ok (.bytes plain)) } ∧
      exec (.deobf plain) s = .next { s with reply := some (.ok (.bytes raw)) }

/-- R102, R103 and R42: the stream has 8 x L symbols and S[8i + j] is bit j of byte i. -/
def Obligations.BitrevEmitsEachByteLeastSignificantFirst : Prop :=
  ∀ (s : State) (p : List Byte), p.length ≤ s.params.cap →
    ∃ S : Bits, exec (.bitrev p) s = .next { s with reply := some (.ok (.stream S)) } ∧ S.length = 8 * p.length ∧
      ∀ (i j : Nat) (b : Byte), p[i]? = some b → j < 8 → S[8 * i + j]? = some (b.getLsbD j)

/-- R105: BITREV is injective. -/
def Obligations.BitrevLosesNothing : Prop :=
  ∀ (s : State) (p q : List Byte), p.length ≤ s.params.cap → q.length ≤ s.params.cap →
    exec (.bitrev p) s = exec (.bitrev q) s → p = q

/-- R44: `MemRead(a, n)` raises MalformedFrameError when a + n > N and otherwise returns the n symbols from address a in
ascending order; no address wraps. -/
def Obligations.MemReadChecksItsBoundAndReadsAscending : Prop :=
  ∀ (S : Bits) (a n : Nat), 1 ≤ n →
    (S.length < a + n → memRead S a n = .error .malformedFrame) ∧
    (a + n ≤ S.length → ∃ w : Bits, memRead S a n = .ok w ∧ w.length = n ∧ ∀ j < n, w[j]? = S[a + j]?)

/-- R112 with R111: VDET by the symbols S[16] to S[23], and MalformedFrameError exactly when N < 24. VAR is not
written. -/
def Obligations.VdetClassifiesTheSelectorWindow : Prop :=
  ∀ (s : State) (S : Bits), S.length ≤ 8 * s.params.cap →
    (S.length < 24 → exec (.vdet S) s = .next { s with reply := some (.err .malformedFrame) }) ∧
    (24 ≤ S.length → exec (.vdet S) s = .next { s with reply := some (.ok (.variant (
      if (S.drop 16).take 8 = [true, true, false, false, false, false, false, false] then .variant1
      else if (S.drop 16).take 8 = [false, true, false, false, false, false, false, false] then .variant2
      else if (S.drop 16).take 8 = [true, false, false, false, false, false, false, false] then .variant3
      else if (S.drop 16).take 8 = [false, false, true, false, false, false, false, false] then .variant4
      else .unknown))) })

/-- R113: the detected variant depends on the symbols [16,24) only; for raw frames of 3 to 20 bytes on raw[2] only. -/
def Obligations.DetectionReadsOnlyTheSelector : Prop :=
  (∀ (s : State) (S T : Bits), S.length ≤ 8 * s.params.cap → T.length ≤ 8 * s.params.cap → 24 ≤ S.length → 24 ≤ T.length →
    (∀ k, 16 ≤ k → k < 24 → S[k]? = T[k]?) → exec (.vdet S) s = exec (.vdet T) s) ∧
  (∀ (s : State) (raw other : List Byte), 21 ≤ s.params.cap → 3 ≤ raw.length → raw.length ≤ 20 → 3 ≤ other.length →
    other.length ≤ 20 → raw[2]? = other[2]? → exec (.vsetup raw) s = exec (.vsetup other) s)

/-- R128 with R121 to R127 and R34: the four cells and the display string, its characters written out, and
MalformedFrameError exactly when N < 60. -/
def Obligations.DigdecDecodesTheFourWindows : Prop :=
  ∀ (s : State) (S : Bits), S.length ≤ 8 * s.params.cap →
    (S.length < 60 → exec (.digdec S) s = .next { s with reply := some (.err .malformedFrame) }) ∧
    (60 ≤ S.length → ∃ d : Digits, exec (.digdec S) s = .next { s with reply := some (.ok (.digits d)) } ∧
      (∀ k : Fin 4,
        some d.cells[k].marker = S[28 + 8 * k.val]? ∧
        (patternBits d.cells[k].code).map some = [S[28 + 8 * k.val + 3]?, S[28 + 8 * k.val + 2]?, S[28 + 8 * k.val + 7]?,
          S[28 + 8 * k.val + 6]?, S[28 + 8 * k.val + 1]?, S[28 + 8 * k.val + 5]?, S[28 + 8 * k.val + 4]?] ∧
        some d.cells[k].glyph = s.params.segRom[d.cells[k].code.toNat]?) ∧
      (let shown : Option Glyph → List Char := fun
          | none => []
          | some .d0 => ['0'] | some .d1 => ['1'] | some .d2 => ['2'] | some .d3 => ['3'] | some .d4 => ['4']
          | some .d5 => ['5'] | some .d6 => ['6'] | some .d7 => ['7'] | some .d8 => ['8'] | some .d9 => ['9']
          | some .capA => ['A'] | some .smallU => ['u'] | some .smallT => ['t'] | some .smallO => ['o']
          | some .capL => ['L'] | some .capE => ['E'] | some .capF => ['F'] | some .dash => ['-']
       let text := fun (mark : Char) (c : Cell) => (if c.marker then [mark] else []) ++ shown c.glyph
       let t := text '-' d.cells[0] ++ text '.' d.cells[1] ++ text '.' d.cells[2] ++ text '.' d.cells[3]
       d.display = if t = [] then ['0'] else t))

/-- R63: marker and code of digit k in PlainFrame byte coordinates, k = 1 to 4 written here as `k + 1`. -/
def Obligations.DigitCellsInByteCoordinates : Prop :=
  ∀ (s : State) (p : List Byte), 8 ≤ p.length → p.length ≤ s.params.cap →
    ∃ d : Digits, exec (.digdec (bitrev p)) s = .next { s with reply := some (.ok (.digits d)) } ∧
      ∀ (k : Fin 4) (lo hi : Byte), p[k.val + 3]? = some lo → p[k.val + 4]? = some hi →
        d.cells[k].marker = lo.getLsbD 4 ∧
        patternBits d.cells[k].code = [lo.getLsbD 7, lo.getLsbD 6, hi.getLsbD 3, hi.getLsbD 2, lo.getLsbD 5, hi.getLsbD 1,
          hi.getLsbD 0]

/-- The source's property "decoding an all-zero 60+-bit stream yields display string "0"" (R129, from R27 law 3 and
R127), with its four blank cells. -/
def Obligations.AllZeroDigitsDisplayZero : Prop :=
  ∀ (s : State) (S : Bits), s.params.Lawful → 60 ≤ S.length → S.length ≤ 8 * s.params.cap →
    (∀ k, 28 ≤ k → k < 60 → S[k]? = some false) →
    exec (.digdec S) s = .next { s with reply := some (.ok (.digits
      ⟨#v[⟨false, 0#7, none⟩, ⟨false, 0#7, none⟩, ⟨false, 0#7, none⟩, ⟨false, 0#7, none⟩], ['0']⟩)) }

/-- R129: the result depends on S[28..59] only. -/
def Obligations.DigdecReadsOnlyTheDigitWindows : Prop :=
  ∀ (s : State) (S T : Bits), 60 ≤ S.length → S.length ≤ 8 * s.params.cap → 60 ≤ T.length → T.length ≤ 8 * s.params.cap →
    (∀ k, 28 ≤ k → k < 60 → S[k]? = T[k]?) → exec (.digdec S) s = exec (.digdec T) s

/-- R147, R152 and R153 in flavour A (codes 000, 001, 011, 100): positions, labels, and the bound 88. -/
def Obligations.AnndecScansFlavourA : Prop :=
  ∀ (s : State) (S : Bits) (v : BitVec 3), v = 0b000#3 ∨ v = 0b001#3 ∨ v = 0b011#3 ∨ v = 0b100#3 →
    S.length ≤ 8 * s.params.cap →
    (S.length < 88 → exec (.anndec S v) s = .next { s with reply := some (.err .malformedFrame) }) ∧
    (88 ≤ S.length →
      let set := fun p : Nat => S[p]? == some true
      let lab := fun p : Nat => if p < 28 then s.params.fn3A.toList.getD (p - 25) [] else s.params.lblA.toList.getD (p - 60) []
      let window := (List.range 28).map (fun k => 87 - k)
      let fpos := [27, 26, 25].filter set ++ window.filter (fun p => set p && [60, 63, 64, 65, 80].contains p)
      let upos := window.filter (fun p => set p && !([60, 63, 64, 65, 80].contains p))
      exec (.anndec S v) s = .next { s with reply := some (.ok (.annotations
        ⟨fpos, upos, (fpos.map lab).filter (· ≠ []), (upos.map lab).filter (· ≠ [])⟩)) })

/-- R151, R152 and R153 in flavour B (code 010): positions, labels, and the bound 80. -/
def Obligations.AnndecScansFlavourB : Prop :=
  ∀ (s : State) (S : Bits), S.length ≤ 8 * s.params.cap →
    (S.length < 80 → exec (.anndec S 0b010#3) s = .next { s with reply := some (.err .malformedFrame) }) ∧
    (80 ≤ S.length →
      let set := fun p : Nat => S[p]? == some true
      let lab := fun p : Nat => if p < 28 then s.params.fn3B.toList.getD (p - 25) [] else s.params.lblB.toList.getD (p - 64) []
      let window := (List.range 16).map (fun k => 79 - k)
      let fpos := [27, 26, 25].filter set ++ window.filter (fun p => set p && [64, 69].contains p)
      let upos := window.filter (fun p => set p && !([64, 69].contains p))
      exec (.anndec S 0b010#3) s = .next { s with reply := some (.ok (.annotations
        ⟨fpos, upos, (fpos.map lab).filter (· ≠ []), (upos.map lab).filter (· ≠ [])⟩)) })

/-- R80 and R153: a reserved variant code is refused, whatever the stream. A refusal is a next state: DEDUCED, log 4. -/
def Obligations.ReservedVariantCodeIsRefused : Prop :=
  ∀ (s : State) (S : Bits) (v : BitVec 3), v = 0b101#3 ∨ v = 0b110#3 ∨ v = 0b111#3 → S.length ≤ 8 * s.params.cap →
    exec (.anndec S v) s = .next { s with reply := some (.refused .reservedVariantCode) }

/-- R154: `upos` strictly descending; `fpos` is the function window's positions descending, then the label window's
descending; no position twice and none in both lists; at most 8 and 23 positions in flavour A, 5 and 14 in flavour B. -/
def Obligations.AnnotationPositionsAreOrderedAndDistinct : Prop :=
  ∀ (s t : State) (S : Bits) (v : BitVec 3) (a : Annotations),
    exec (.anndec S v) s = .next t → t.reply = some (.ok (.annotations a)) →
    a.upos.Pairwise (· > ·) ∧
    (∃ front back : List Nat, a.fpos = front ++ back ∧ front.Pairwise (· > ·) ∧ back.Pairwise (· > ·) ∧
      (∀ p ∈ front, p < 28) ∧ (∀ p ∈ back, 60 ≤ p)) ∧
    (a.fpos ++ a.upos).Nodup ∧
    (v ≠ 0b010#3 → a.fpos.length ≤ 8 ∧ a.upos.length ≤ 23) ∧ (v = 0b010#3 → a.fpos.length ≤ 5 ∧ a.upos.length ≤ 14)

/-- R32: where the labels of a flavour's tables are pairwise distinct (the empty ones apart), no label comes twice. -/
def Obligations.DistinctLabelsComeOutOnce : Prop :=
  ∀ (s t : State) (S : Bits) (v : BitVec 3) (a : Annotations),
    (v = 0b010#3 → s.params.DistinctB) → (v ≠ 0b010#3 → s.params.DistinctA) →
    exec (.anndec S v) s = .next t → t.reply = some (.ok (.annotations a)) → (a.functions ++ a.units).Nodup

/-- R172 and R173: while a variant is held, DECODE of a frame the flavour's windows fit in is DEOBF, then BITREV, then
DIGDEC and ANNDEC with the held variant's code, as the stage operations answer them, and `variant` is the held one. -/
def Obligations.DecodeIsItsStagesInOrder : Prop :=
  ∀ (s : State) (raw : List Byte), 21 ≤ s.params.cap → s.varValid = true → raw.length ≤ 20 →
    (if s.var = .variant2 then 80 else 88) ≤ 8 * raw.length →
    ∃ (plain : List Byte) (S : Bits) (d : Digits) (a : Annotations),
      exec (.deobf raw) s = .next { s with reply := some (.ok (.bytes plain)) } ∧
      exec (.bitrev plain) s = .next { s with reply := some (.ok (.stream S)) } ∧
      exec (.digdec S) s = .next { s with reply := some (.ok (.digits d)) } ∧
      exec (.anndec S (variantCode s.var)) s = .next { s with reply := some (.ok (.annotations a)) } ∧
      exec (.decode raw) s = .next { s with reply := some (.ok (.reading ⟨d, a, s.var⟩)) }

/-- R175 and R197: the errors of DECODE, each exactly where the frame's length says; no content of a frame of legal
length raises anything. -/
def Obligations.DecodeErrsByLengthAlone : Prop :=
  ∀ (s : State) (raw : List Byte), 21 ≤ s.params.cap → s.varValid = true → raw.length ≤ s.params.cap →
    (20 < raw.length → exec (.decode raw) s = .next { s with reply := some (.err .outOfRange) }) ∧
    (raw.length < (if s.var = .variant2 then 10 else 11) →
      exec (.decode raw) s = .next { s with reply := some (.err .malformedFrame) }) ∧
    ((if s.var = .variant2 then 10 else 11) ≤ raw.length → raw.length ≤ 20 →
      ∃ r : Reading, exec (.decode raw) s = .next { s with reply := some (.ok (.reading r)) } ∧ r.variant = s.var)

/-- R174: with no variant held DECODE is refused, whatever the frame, and writes nothing. A refusal is a next state:
DEDUCED, log 4. -/
def Obligations.DecodeWithoutVariantIsRefused : Prop :=
  ∀ (s : State) (raw : List Byte), s.varValid = false → raw.length ≤ s.params.cap →
    exec (.decode raw) s = .next { s with reply := some (.refused .variantNotSet) }

/-- R176 with R64: VSETUP of 3 to 20 bytes holds the variant that raw byte 2 names (0x70, 0x71, 0x72, 0x77, any other
Unknown) and returns it; on either hard error nothing is written. Any held variant is overwritten (R177). -/
def Obligations.VsetupHoldsTheVariantOfByteTwo : Prop :=
  ∀ (s : State) (raw : List Byte), 21 ≤ s.params.cap → raw.length ≤ s.params.cap →
    (20 < raw.length → exec (.vsetup raw) s = .next { s with reply := some (.err .outOfRange) }) ∧
    (raw.length < 3 → exec (.vsetup raw) s = .next { s with reply := some (.err .malformedFrame) }) ∧
    (raw.length ≤ 20 → ∀ b : Byte, raw[2]? = some b →
      let v : DeviceVariant :=
        if b = 0x70#8 then .variant1 else if b = 0x71#8 then .variant2 else if b = 0x72#8 then .variant3
        else if b = 0x77#8 then .variant4 else .unknown
      exec (.vsetup raw) s = .next { s with var := v, varValid := true, reply := some (.ok (.variant v)) })

/-- R177: a second VSETUP means what the first means: after one that was answered Ok, another leaves the state it would
have left without the first. -/
def Obligations.SecondVsetupOverwritesTheFirst : Prop :=
  ∀ (s t : State) (first second : List Byte) (v : DeviceVariant), 21 ≤ s.params.cap → 3 ≤ second.length →
    second.length ≤ 20 → exec (.vsetup first) s = .next t → t.reply = some (.ok (.variant v)) →
    exec (.vsetup second) t = exec (.vsetup second) s

/-- R141 and R173: Variant1, Variant3, Variant4 and Unknown decode a frame alike but for the variant field. -/
def Obligations.FlavourAVariantsDecodeAlike : Prop :=
  ∀ (s : State) (raw : List Byte) (v w : DeviceVariant) (r : Reading), v ≠ .variant2 → w ≠ .variant2 →
    exec (.decode raw) { s with var := v } = .next { s with var := v, reply := some (.ok (.reading r)) } →
    r.variant = v ∧
    exec (.decode raw) { s with var := w } = .next { s with var := w, reply := some (.ok (.reading { r with variant := w })) }

/-- R48 and R62: DECODE reads of a frame only the symbols [25,88) in flavour A and [25,60) and [64,80) in flavour B; the
selector and every other bit may differ. -/
def Obligations.DecodeIgnoresTheBitsNoStageReads : Prop :=
  ∀ (s : State) (raw other : List Byte), raw.length = other.length →
    (∀ i j : Nat, j < 8 →
      (if s.var = .variant2 then (25 ≤ 8 * i + j ∧ 8 * i + j < 60) ∨ (64 ≤ 8 * i + j ∧ 8 * i + j < 80)
       else 25 ≤ 8 * i + j ∧ 8 * i + j < 88) →
      raw[i]?.map (·.getLsbD j) = other[i]?.map (·.getLsbD j)) →
    exec (.decode raw) s = exec (.decode other) s

/-- R80: op = 111 is refused, whatever operand stands at the port. A refusal is a next state: DEDUCED, log 4. -/
def Obligations.ReservedOperationIsRefused : Prop :=
  ∀ (s : State) (a : Operand), exec (.reservedOp a) s = .next { s with reply := some (.refused .reservedOp) }

/-- R71 and R195: an operand over the capacity is refused by every operation that takes one, before anything else.
A refusal is a next state: DEDUCED, log 4. -/
def Obligations.OperandOverCapacityIsRefused : Prop :=
  ∀ (s : State),
    (∀ b : List Byte, s.params.cap < b.length → ∀ i ∈ [Instr.deobf b, .bitrev b, .decode b, .vsetup b],
      exec i s = .next { s with reply := some (.refused .overCapacity) }) ∧
    (∀ (S : Bits) (v : BitVec 3), 8 * s.params.cap < S.length → ∀ i ∈ [Instr.vdet S, .digdec S, .anndec S v],
      exec i s = .next { s with reply := some (.refused .overCapacity) })

/-- R111: what each selector row's look-up answers; any unlisted pattern is Unknown. That a row is a step of its own:
DESIGN CHOICE, log 8. -/
def Obligations.SelectorRowsAnswerTheirVariant : Prop :=
  ∀ s : State,
    exec .selVariant1 s = .next { s with reply := some (.ok (.variant .variant1)) } ∧
    exec .selVariant2 s = .next { s with reply := some (.ok (.variant .variant2)) } ∧
    exec .selVariant3 s = .next { s with reply := some (.ok (.variant .variant3)) } ∧
    exec .selVariant4 s = .next { s with reply := some (.ok (.variant .variant4)) } ∧
    ∀ w : BitVec 8, w ≠ 0b11000000#8 → w ≠ 0b01000000#8 → w ≠ 0b10000000#8 → w ≠ 0b00100000#8 →
      exec (.selUnknown w) s = .next { s with reply := some (.ok (.variant .unknown)) }

/-- R75 and R80: what the reading of each DeviceVariant code answers; the three reserved codes are refused. That a
row is a step of its own: DESIGN CHOICE, log 8. A refusal is a next state: DEDUCED, log 4. -/
def Obligations.VariantCodeRowsAnswerTheirVariant : Prop :=
  ∀ s : State,
    exec .varcodeUnknown s = .next { s with reply := some (.ok (.variant .unknown)) } ∧
    exec .varcodeVariant1 s = .next { s with reply := some (.ok (.variant .variant1)) } ∧
    exec .varcodeVariant2 s = .next { s with reply := some (.ok (.variant .variant2)) } ∧
    exec .varcodeVariant3 s = .next { s with reply := some (.ok (.variant .variant3)) } ∧
    exec .varcodeVariant4 s = .next { s with reply := some (.ok (.variant .variant4)) } ∧
    exec .varcodeReserved101 s = .next { s with reply := some (.refused .reservedVariantCode) } ∧
    exec .varcodeReserved110 s = .next { s with reply := some (.refused .reservedVariantCode) } ∧
    exec .varcodeReserved111 s = .next { s with reply := some (.refused .reservedVariantCode) }

/-- R124: each segment row's look-up answers what the block's SEG_ROM holds at the row's address, for every SEG_ROM.
That a row is a step of its own: DESIGN CHOICE, log 8. -/
def Obligations.SegmentRowsReadTheSegmentRom : Prop :=
  ∀ s : State,
    (∀ x ∈ ([(.seg0, 0b1110111#7), (.seg1, 0b0010010#7), (.seg2, 0b1011101#7), (.seg3, 0b1011011#7), (.seg4, 0b0111010#7),
        (.seg5, 0b1101011#7), (.seg6, 0b1101111#7), (.seg7, 0b1010010#7), (.seg8, 0b1111111#7), (.seg9, 0b1111011#7),
        (.segA, 0b1111110#7), (.segU, 0b0000111#7), (.segT, 0b0101101#7), (.segO, 0b0001111#7), (.segL, 0b0100101#7),
        (.segE, 0b1101101#7), (.segF, 0b1101100#7), (.segDash, 0b0001000#7)] : List (Instr × BitVec 7)),
      ∃ g, s.params.segRom[x.2.toNat]? = some g ∧ exec x.1 s = .next { s with reply := some (.ok (.glyph g)) }) ∧
    (∀ c : BitVec 7, ∃ g, s.params.segRom[c.toNat]? = some g ∧
      exec (.segBlank c) s = .next { s with reply := some (.ok (.glyph g)) })

/-- In a block whose SEG_ROM is SEG_ROM_DEFAULT each segment row answers the glyph it names, and every other code blank
(R28, `[from general knowledge, not in source]`; PRESUMED, log 6). That a row is a step of its own: DESIGN CHOICE, log 8. -/
def Obligations.SegmentRowsOfTheDefaultRomAnswerTheirGlyph : Prop :=
  ∀ s : State, s.params.segRom = Config.SEG_ROM_DEFAULT →
    (∀ x ∈ ([(.seg0, .d0), (.seg1, .d1), (.seg2, .d2), (.seg3, .d3), (.seg4, .d4), (.seg5, .d5), (.seg6, .d6), (.seg7, .d7),
        (.seg8, .d8), (.seg9, .d9), (.segA, .capA), (.segU, .smallU), (.segT, .smallT), (.segO, .smallO), (.segL, .capL),
        (.segE, .capE), (.segF, .capF), (.segDash, .dash)] : List (Instr × Glyph)),
      exec x.1 s = .next { s with reply := some (.ok (.glyph (some x.2))) }) ∧
    (∀ c : BitVec 7, (Instr.segBlank c).WellFormed →
      exec (.segBlank c) s = .next { s with reply := some (.ok (.glyph none)) })

/-- R76: each outcome row ends with its outcome; the port shows its code, the reason beside code 11, and no result
field. That a row is a step of its own: DESIGN CHOICE, log 8. A refusal is a next state: DEDUCED, log 4. -/
def Obligations.OutcomeRowsShowTheirCode : Prop :=
  ∀ s : State,
    exec .outOk s = .next { s with reply := some (.ok .none) } ∧
    exec .outOutOfRange s = .next { s with reply := some (.err .outOfRange) } ∧
    exec .outMalformed s = .next { s with reply := some (.err .malformedFrame) } ∧
    exec (.outRefused 0b00#2) s = .next { s with reply := some (.refused .variantNotSet) } ∧
    exec (.outRefused 0b01#2) s = .next { s with reply := some (.refused .reservedOp) } ∧
    exec (.outRefused 0b10#2) s = .next { s with reply := some (.refused .reservedVariantCode) } ∧
    exec (.outRefused 0b11#2) s = .next { s with reply := some (.refused .overCapacity) } ∧
    present (.ok .none) = ⟨0b00#2, none, .none⟩ ∧ present (.err .outOfRange) = ⟨0b01#2, none, .none⟩ ∧
    present (.err .malformedFrame) = ⟨0b10#2, none, .none⟩ ∧
    (∀ r : BitVec 2, present (.refused (reasonOfCode r)) = ⟨0b11#2, some r, .none⟩)

/-- R78: the ordered lists of an ANNDEC result are recovered from the vectors `fvec` and `uvec` at the port. The places
of the bits inside the two vectors are the model's (log 11). -/
def Obligations.PositionListsAreRecoveredFromThePort : Prop :=
  ∀ (s t : State) (S : Bits) (v : BitVec 3) (a : Annotations),
    exec (.anndec S v) s = .next t → t.reply = some (.ok (.annotations a)) →
    ∃ fvec uvec : PosVec, t.port = some ⟨0b00#2, none, .annotations fvec uvec a.functions a.units⟩ ∧
      fvec.positions = a.fpos ∧ uvec.positions = a.upos

/-- R34, R75 and R77: the character and the 5-bit code of each Glyph, 31 for blank and no other code, and the 3-bit code of
each DeviceVariant, which reads back; the codes 101, 110 and 111 read as none. -/
def Obligations.GlyphsAndVariantsHaveTheirCharactersAndCodes : Prop :=
  (∀ x ∈ ([(.d0, '0', 0), (.d1, '1', 1), (.d2, '2', 2), (.d3, '3', 3), (.d4, '4', 4), (.d5, '5', 5), (.d6, '6', 6),
      (.d7, '7', 7), (.d8, '8', 8), (.d9, '9', 9), (.capA, 'A', 10), (.smallU, 'u', 11), (.smallT, 't', 12), (.smallO, 'o', 13),
      (.capL, 'L', 14), (.capE, 'E', 15), (.capF, 'F', 16), (.dash, '-', 17)] : List (Glyph × Char × Nat)),
    glyphChar x.1 = x.2.1 ∧ (glyphCode (some x.1)).toNat = x.2.2) ∧
  glyphCode none = 31#5 ∧ (∀ g, (glyphCode g).toNat < 18 ∨ (glyphCode g).toNat = 31) ∧
  (∀ x ∈ ([(.unknown, 0b000#3), (.variant1, 0b001#3), (.variant2, 0b010#3), (.variant3, 0b011#3), (.variant4, 0b100#3)] :
      List (DeviceVariant × BitVec 3)), variantCode x.1 = x.2 ∧ variantOfCode x.2 = some x.1) ∧
  variantOfCode 0b101#3 = none ∧ variantOfCode 0b110#3 = none ∧ variantOfCode 0b111#3 = none

/-- R78 with R75 to R77: what the host sees at the port of each operation that completes, written out: L and L bytes, N and
N symbols, a variant code, four cells of marker, code and 5-bit glyph code with the display string, two position vectors from
which the lists are recovered with the labels, and for DECODE all of these with the variant code. The places of the bits in
the vectors are the model's (DESIGN CHOICE, log 11). -/
def Obligations.PortPresentsTheResultOfEachOperation : Prop :=
  let glyphNumber : Option Glyph → BitVec 5 := fun
    | none => 31#5
    | some .d0 => 0#5 | some .d1 => 1#5 | some .d2 => 2#5 | some .d3 => 3#5 | some .d4 => 4#5
    | some .d5 => 5#5 | some .d6 => 6#5 | some .d7 => 7#5 | some .d8 => 8#5 | some .d9 => 9#5
    | some .capA => 10#5 | some .smallU => 11#5 | some .smallT => 12#5 | some .smallO => 13#5
    | some .capL => 14#5 | some .capE => 15#5 | some .capF => 16#5 | some .dash => 17#5
  let variantNumber : DeviceVariant → BitVec 3 := fun
    | .unknown => 0b000#3 | .variant1 => 0b001#3 | .variant2 => 0b010#3 | .variant3 => 0b011#3 | .variant4 => 0b100#3
  let seen : Cell → PortCell := fun c => ⟨c.marker, c.code, glyphNumber c.glyph⟩
  ∀ s : State, 21 ≤ s.params.cap →
    (∀ raw : List Byte, raw.length ≤ 20 → ∃ t b, exec (.deobf raw) s = .next t ∧ t.reply = some (.ok (.bytes b)) ∧
      t.port = some ⟨0b00#2, none, .bytes raw.length b⟩) ∧
    (∀ p : List Byte, p.length ≤ s.params.cap → ∃ t S, exec (.bitrev p) s = .next t ∧ t.reply = some (.ok (.stream S)) ∧
      t.port = some ⟨0b00#2, none, .symbols (8 * p.length) S⟩) ∧
    (∀ S : Bits, 24 ≤ S.length → S.length ≤ 8 * s.params.cap → ∃ t v, exec (.vdet S) s = .next t ∧
      t.reply = some (.ok (.variant v)) ∧ t.port = some ⟨0b00#2, none, .variant (variantNumber v)⟩) ∧
    (∀ raw : List Byte, 3 ≤ raw.length → raw.length ≤ 20 → ∃ t, exec (.vsetup raw) s = .next t ∧
      t.reply = some (.ok (.variant t.var)) ∧ t.varBits = variantNumber t.var ∧
      t.port = some ⟨0b00#2, none, .variant (variantNumber t.var)⟩) ∧
    (∀ S : Bits, 60 ≤ S.length → S.length ≤ 8 * s.params.cap → ∃ t d, exec (.digdec S) s = .next t ∧
      t.reply = some (.ok (.digits d)) ∧
      t.port = some ⟨0b00#2, none,
        .digits #v[seen d.cells[0], seen d.cells[1], seen d.cells[2], seen d.cells[3]] d.display⟩) ∧
    (∀ (S : Bits) (v : DeviceVariant), 88 ≤ S.length → S.length ≤ 8 * s.params.cap →
      ∃ t a fvec uvec, exec (.anndec S (variantNumber v)) s = .next t ∧ t.reply = some (.ok (.annotations a)) ∧
        t.port = some ⟨0b00#2, none, .annotations fvec uvec a.functions a.units⟩ ∧
        fvec.positions = a.fpos ∧ uvec.positions = a.upos) ∧
    (∀ raw : List Byte, s.varValid = true → (if s.var = .variant2 then 10 else 11) ≤ raw.length → raw.length ≤ 20 →
      ∃ t r fvec uvec, exec (.decode raw) s = .next t ∧ t.reply = some (.ok (.reading r)) ∧
        t.port = some ⟨0b00#2, none,
          .reading #v[seen r.digits.cells[0], seen r.digits.cells[1], seen r.digits.cells[2], seen r.digits.cells[3]]
            r.digits.display fvec uvec r.notes.functions r.notes.units (variantNumber s.var)⟩ ∧
        fvec.positions = r.notes.fpos ∧ uvec.positions = r.notes.upos)

/-- R30 with R152: in a lawful block six positions of the flavour A label window are placeholders: a stream in which one of
them is the only flag set gives that position, in `fpos` or `upos` by its class, and no label. -/
def Obligations.SixFlagsOfFlavourAHaveNoLabel : Prop :=
  ∀ s : State, s.params.Lawful →
    ∃ ps : List Nat, 6 ≤ ps.length ∧ ps.Nodup ∧ ∀ p ∈ ps, 60 ≤ p ∧ p < 88 ∧
      ∀ (S : Bits) (v : BitVec 3), v = 0b000#3 ∨ v = 0b001#3 ∨ v = 0b011#3 ∨ v = 0b100#3 → 88 ≤ S.length →
        S.length ≤ 8 * s.params.cap →
        (∀ k, (25 ≤ k ∧ k < 28) ∨ (60 ≤ k ∧ k < 88) → S[k]? = some (k == p)) →
        exec (.anndec S v) s = .next { s with reply := some (.ok (.annotations
          (if p ∈ [60, 63, 64, 65, 80] then ⟨[p], [], [], []⟩ else ⟨[], [p], [], []⟩))) }

/-- A step takes the host's next request and executes the instruction it decodes to (20_memory.md R49). The request
queue is the model's (log 2). -/
def Obligations.StepRunsTheDecodedRequest : Prop :=
  ∀ (s : State) (r : Request) (rest : List HostInput) (i : Instr), s.requests = .request r :: rest → decode r = .ok i →
    step s = exec i { s with requests := rest }

/-- The machine stops only where the host presents no request, and there with the named fault; no step is refused (model's
choice, log 9; R198: the session survives any number of errors). That a refusal of the block does not stop it is DEDUCED
(log 4); the queue is the model's (log 2). -/
def Obligations.StepStopsOnlyOnWhatIsNoRequest : Prop :=
  ∀ s : State,
    (∀ f, step s = .fault f ↔ ∃ r rest e, s.requests = .request r :: rest ∧ decode r = .error e ∧ f = .noSuchRequest e) ∧
    (∀ r, step s ≠ .refused r) ∧
    ((∀ x ∈ s.requests.head?, Presentable x) → SafeStep s)

/-- R220: RESET clears VAR_VALID, leaves the parameters, and keeps no outcome; nothing is said of VAR. What the host
still asks stays (log 2). -/
def Obligations.ResetInputClearsTheValidBit : Prop :=
  ∀ (s : State) (rest : List HostInput), s.requests = .reset :: rest →
    ∃ t, step s = .next t ∧ t.varValid = false ∧ t.params = s.params ∧ t.reply = none ∧ t.requests = rest

/-- R222: with nothing asked the block does nothing and returns nothing. -/
def Obligations.IdleBlockDoesNothing : Prop :=
  ∀ s : State, s.requests = [] → step s = .next { s with reply := none }

/-- R36: after reset VAR_VALID is 0. That nothing is asked or answered yet is the model's (logs 2 and 3). -/
def Obligations.ResetHoldsNoVariant : Prop :=
  State.reset.varValid = false ∧ State.reset.requests = [] ∧ State.reset.reply = none ∧ State.reset.params.Lawful

/-- R223: after a RESET a DECODE is refused, whatever was held before. That a refusal is a next state is
DEDUCED (log 4); the queue is the model's (log 2). -/
def Obligations.DecodeAfterResetIsRefused : Prop :=
  ∀ (s : State) (raw : List Byte) (rest : List HostInput), raw.length ≤ s.params.cap →
    s.requests = .reset :: .ofInstr (.decode raw) :: rest →
    trace 2 s = [none, some (.refused .variantNotSet)]

/-- The invariant holds after reset. -/
def Obligations.InvariantHoldsAtReset : Prop := Inv State.reset

/-- Every step keeps the invariant: the parameters keep their laws, and what stands at the result port is shaped as the
rules of its operation say (R27, R30, R71; R91, R103, R129, R152, R154). -/
def Obligations.EveryStepKeepsTheInvariant : Prop :=
  ∀ s t : State, Inv s → step s = .next t → Inv t

/-- The requests the decoder accepts and the well-formed instructions are the same things: a request decodes to an
instruction exactly when the instruction is well-formed and is encoded as that request. The request form is the model's
(DESIGN CHOICE, logs 7 and 8), and so is the rejection of other operands (DESIGN CHOICE, log 9); the split of the SEG7 rows
rests on the table of R28 (PRESUMED, log 6). -/
def Obligations.DecodeInvertsEncode : Prop :=
  ∀ (r : Request) (i : Instr), decode r = .ok i ↔ i.WellFormed ∧ encode i = r

/-- A few codes written out from the spec's tables decode, in the model's numbering and request form, to what they stand
for (R70, R75, R76, R111, R28). The model's choices: a request is a code with a typed operand (DESIGN CHOICE, log 7); the
SEL8, VAR3, SEG7 and OUT2 rows are requests (DESIGN CHOICE, log 8); a pattern's first character is most significant and the
width of a table word names its format (DESIGN CHOICE, log 10). The SEG7 row's address is of the table that R28 has from
general knowledge (PRESUMED, log 6). -/
def Obligations.WrittenWordsDecode : Prop :=
  decode ⟨.op 0b000#3, .bytes [0x12#8, 0x34#8]⟩ = .ok (.deobf [0x12#8, 0x34#8]) ∧
  decode ⟨.op 0b100#3, .symbolsVariant [true] 0b010#3⟩ = .ok (.anndec [true] 0b010#3) ∧
  decode ⟨.op 0b110#3, .bytes []⟩ = .ok (.vsetup []) ∧
  decode ⟨.sel 0b11000000#8, .none⟩ = .ok .selVariant1 ∧
  decode ⟨.var 0b100#3, .none⟩ = .ok .varcodeVariant4 ∧
  decode ⟨.seg 0b0010010#7, .none⟩ = .ok .seg1 ∧
  decode ⟨.out 0b11#2, .reason 0b01#2⟩ = .ok (.outRefused 0b01#2) ∧
  decodeTableWord 8 192 = some .selVariant1

/-- Every instruction completes, and its frame: only VSETUP may write VAR or VAR_VALID (R20, R178), and no instruction writes
the parameters (R26). After a hard error that is R196. That a refused instruction completes too (op 111, a reserved variant
code, an operand over CAP, DECODE with no variant held) is the model's inference (R194; DEDUCED, log 4, unsafe there). The
clauses on the model's own fields rest on its choices: the reset count (DESIGN CHOICE, log 1), the host's queue (DESIGN
CHOICE, log 2), the reply (DESIGN CHOICE, log 3); and so does taking the rows of the formats other than OP3 as instructions
(DESIGN CHOICE, log 8). -/
def Obligations.EveryInstructionKeepsItsFrame : Prop :=
  ∀ (i : Instr) (s : State), ∃ t, exec i s = .next t ∧ t.params = s.params ∧ t.requests = s.requests ∧
    t.resets = s.resets ∧ (∃ y, t.reply = some y) ∧
    ((∀ raw, i ≠ .vsetup raw) → t.var = s.var ∧ t.varValid = s.varValid)

/-- R178 with R20: a step that changes VAR or VAR_VALID is a RESET or a VSETUP; a step that sets VAR_VALID is a VSETUP
answered Ok with the variant VAR then holds. -/
def Obligations.OnlyResetAndVsetupWriteTheSessionRegister : Prop :=
  ∀ s t : State, step s = .next t →
    (t.var ≠ s.var ∨ t.varValid ≠ s.varValid →
      ∃ x rest, s.requests = x :: rest ∧ (x = .reset ∨ ∃ raw, HostInput.instr? x = some (.vsetup raw))) ∧
    (s.varValid = false → t.varValid = true → t.reply = some (.ok (.variant t.var)))

/-- R26: no step writes a ROM. -/
def Obligations.NoStepWritesTheParameters : Prop :=
  ∀ s t : State, step s = .next t → t.params = s.params

/-- R196 and R194: an instruction that ends in a hard error or a refusal writes no state of the block. That a refusal is a
next state is DEDUCED (log 4). -/
def Obligations.ErrorsAndRefusalsWriteNoState : Prop :=
  ∀ (i : Instr) (s t : State), exec i s = .next t →
    (∃ e, t.reply = some (.err e)) ∨ (∃ w, t.reply = some (.refused w)) → t = { s with reply := t.reply }

/-- After a step that ended in a hard error or a refusal, everything the host is answered is as if that request had not been
made. For a hard error that is R198. For a refusal it is the model's inference, DEDUCED and marked unsafe in log 4: the spec
says that a refusal writes no state (R194) and that no answer depends on an earlier operand (R49), and nowhere that the host
goes on after one as after a hard error. -/
def Obligations.FailedRequestLeavesNoTrace : Prop :=
  ∀ (s t : State) (r : Request) (rest : List HostInput) (n : Nat), s.requests = .request r :: rest → step s = .next t →
    (∃ e, t.reply = some (.err e)) ∨ (∃ w, t.reply = some (.refused w)) →
    trace n t = trace n { s with requests := rest }

/-- R36: while VAR_VALID is 0 the content of VAR is never observed: two blocks that differ in VAR alone answer the host
alike for ever, whatever it asks. That the inputs stand in a queue is the model's (log 2). -/
def Obligations.UnsetVariantIsNeverObserved : Prop :=
  ∀ (s : State) (v : DeviceVariant) (n : Nat), s.varValid = false → trace n { s with var := v } = trace n s

/-- R49 and R24: between two VSETUPs the answer to each request depends on its own operand and the held variant alone,
never on an earlier request. That the block goes on after a refused one is DEDUCED (log 4); the
queue is the model's (log 2). -/
def Obligations.AnswersDoNotDependOnEarlierRequests : Prop :=
  ∀ (s : State) (is : List Instr) (rest : List HostInput),
    (∀ i ∈ is, i.WellFormed ∧ ∀ raw, i ≠ .vsetup raw) → s.requests = is.map HostInput.ofInstr ++ rest →
    trace is.length s = is.map (fun i => replyOf (exec i s))

/-- R170: a session. After a VSETUP of 3 to 20 bytes, every frame is decoded with the variant that the first frame
detected, whatever variant was held before and whatever selector the later frames carry. The queue is the model's
(log 2). -/
def Obligations.SessionDecodesEveryFrameWithTheDetectedVariant : Prop :=
  ∀ (s : State) (first : List Byte) (frames : List (List Byte)) (v : DeviceVariant),
    21 ≤ s.params.cap → detect first = .ok v → (∀ f ∈ frames, f.length ≤ s.params.cap) →
    s.requests = .ofInstr (.vsetup first) :: frames.map (fun f => HostInput.ofInstr (.decode f)) →
    trace (frames.length + 1) s = some (.ok (.variant v)) ::
      frames.map (fun f => some (match decodeFrame s.params f v with
        | .ok r => Reply.ok (.reading r)
        | .error e => Reply.err e))
end

