-- ==== Sys2Proof/Laws/State.lean ====
section
/-! SUPPORT. One lemma per field per update of the state, and one lemma per shared operation that says all it does. -/

namespace Sys2Proof.Machine

variable (s : State) (r : Result) (e : HardError) (w : RefusalReason) (v : DeviceVariant)

@[simp] theorem State.answer_var : (s.answer r).var = s.var := rfl
@[simp] theorem State.answer_varValid : (s.answer r).varValid = s.varValid := rfl
@[simp] theorem State.answer_params : (s.answer r).params = s.params := rfl
@[simp] theorem State.answer_requests : (s.answer r).requests = s.requests := rfl
@[simp] theorem State.answer_reply : (s.answer r).reply = some (.ok r) := rfl
@[simp] theorem State.answer_resets : (s.answer r).resets = s.resets := rfl

@[simp] theorem State.raise_var : (s.raise e).var = s.var := rfl
@[simp] theorem State.raise_varValid : (s.raise e).varValid = s.varValid := rfl
@[simp] theorem State.raise_params : (s.raise e).params = s.params := rfl
@[simp] theorem State.raise_requests : (s.raise e).requests = s.requests := rfl
@[simp] theorem State.raise_reply : (s.raise e).reply = some (.err e) := rfl
@[simp] theorem State.raise_resets : (s.raise e).resets = s.resets := rfl

@[simp] theorem State.refuse_var : (s.refuse w).var = s.var := rfl
@[simp] theorem State.refuse_varValid : (s.refuse w).varValid = s.varValid := rfl
@[simp] theorem State.refuse_params : (s.refuse w).params = s.params := rfl
@[simp] theorem State.refuse_requests : (s.refuse w).requests = s.requests := rfl
@[simp] theorem State.refuse_reply : (s.refuse w).reply = some (.refused w) := rfl
@[simp] theorem State.refuse_resets : (s.refuse w).resets = s.resets := rfl

@[simp] theorem State.holdVariant_var : (s.holdVariant v).var = v := rfl
@[simp] theorem State.holdVariant_varValid : (s.holdVariant v).varValid = true := rfl
@[simp] theorem State.holdVariant_params : (s.holdVariant v).params = s.params := rfl
@[simp] theorem State.holdVariant_requests : (s.holdVariant v).requests = s.requests := rfl
@[simp] theorem State.holdVariant_reply : (s.holdVariant v).reply = s.reply := rfl
@[simp] theorem State.holdVariant_resets : (s.holdVariant v).resets = s.resets := rfl

@[simp] theorem State.applyReset_var : (s.applyReset).var = Config.freeVar s.resets := rfl
@[simp] theorem State.applyReset_varValid : (s.applyReset).varValid = false := rfl
@[simp] theorem State.applyReset_params : (s.applyReset).params = s.params := rfl
@[simp] theorem State.applyReset_requests : (s.applyReset).requests = s.requests := rfl
@[simp] theorem State.applyReset_reply : (s.applyReset).reply = none := rfl
@[simp] theorem State.applyReset_resets : (s.applyReset).resets = s.resets + 1 := rfl

@[simp] theorem State.finish_ok : s.finish (.ok r) = s.answer r := rfl
@[simp] theorem State.finish_error : s.finish (.error e) = s.raise e := rfl

/-- Ending an operation writes the reply and nothing else. -/
theorem State.finish_eq (x : Except HardError Result) :
    s.finish x = { s with reply := some (match x with | .ok r => .ok r | .error e => .err e) } := by
  cases x <;> rfl

theorem State.withinCap_of_le {n cap : Nat} (k : State) (h : n ≤ cap) : s.withinCap n cap k = k := by
  simp [State.withinCap, Nat.not_lt.mpr h]

theorem State.withinCap_of_lt {n cap : Nat} (k : State) (h : cap < n) :
    s.withinCap n cap k = s.refuse .overCapacity := by
  simp [State.withinCap, h]

/-- The capacity check refuses or does what it guards. -/
theorem State.withinCap_cases (n cap : Nat) (k : State) :
    (cap < n ∧ s.withinCap n cap k = s.refuse .overCapacity) ∨ (n ≤ cap ∧ s.withinCap n cap k = k) := by
  rcases Nat.lt_or_ge cap n with h | h
  · exact .inl ⟨h, s.withinCap_of_lt k h⟩
  · exact .inr ⟨h, s.withinCap_of_le k h⟩

/-- Reading a variant code writes the reply and nothing else. -/
theorem State.lookVariant_eq (c : BitVec 3) :
    s.lookVariant c = { s with reply := some (match variantOfCode c with
      | some v => .ok (.variant v) | none => .refused .reservedVariantCode) } := by
  unfold State.lookVariant
  cases variantOfCode c <;> rfl

/-- An outcome code writes the reply and nothing else. -/
theorem State.endWith_eq (c reason : BitVec 2) : ∃ y, s.endWith c reason = { s with reply := some y } := by
  unfold State.endWith
  split <;> exact ⟨_, rfl⟩

end Sys2Proof.Machine
end

