-- ==== Sys2Proof/Laws/Exec.lean ====
section
/-! SUPPORT. What an instruction can do and what a step can do, said once. -/

namespace Sys2Proof.Machine

/-- An instruction that is not a VSETUP writes the reply and nothing else. -/
def OnlyReplies (o : Host.Outcome State Fault Refusal) (s : State) : Prop :=
  ∃ y, o = .next { s with reply := some y }

theorem onlyReplies_withinCap {s k : State} (n cap : Nat) (h : ∃ y, k = { s with reply := some y }) :
    OnlyReplies (.next (s.withinCap n cap k)) s := by
  obtain ⟨y, rfl⟩ := h
  obtain ⟨_, e⟩ | ⟨_, e⟩ := s.withinCap_cases n cap { s with reply := some y } <;> rw [e] <;> exact ⟨_, rfl⟩

theorem finish_onlyReplies (s : State) (x : Except HardError Result) :
    ∃ y, s.finish x = { s with reply := some y } := ⟨_, s.finish_eq x⟩

/-! What each operation does with an operand the port can present. -/

theorem exec_deobf {s : State} {raw : List Byte} (h : raw.length ≤ s.params.cap) :
    exec (.deobf raw) s = .next (s.finish ((deobf raw).map .bytes)) :=
  congrArg Host.Outcome.next (s.withinCap_of_le _ h)

theorem exec_bitrev {s : State} {p : List Byte} (h : p.length ≤ s.params.cap) :
    exec (.bitrev p) s = .next (s.answer (.stream (bitrev p))) :=
  congrArg Host.Outcome.next (s.withinCap_of_le _ h)

theorem exec_vdet {s : State} {S : Bits} (h : S.length ≤ 8 * s.params.cap) :
    exec (.vdet S) s = .next (s.finish ((vdet S).map .variant)) :=
  congrArg Host.Outcome.next (s.withinCap_of_le _ h)

theorem exec_digdec {s : State} {S : Bits} (h : S.length ≤ 8 * s.params.cap) :
    exec (.digdec S) s = .next (s.finish ((digdec s.params S).map .digits)) :=
  congrArg Host.Outcome.next (s.withinCap_of_le _ h)

theorem exec_anndec {s : State} {S : Bits} {c : BitVec 3} {v : DeviceVariant} (h : S.length ≤ 8 * s.params.cap)
    (hv : variantOfCode c = some v) :
    exec (.anndec S c) s = .next (s.finish ((anndec s.params S v).map .annotations)) := by
  simp only [exec, execAnndec, hv, s.withinCap_of_le _ h]

theorem exec_decode {s : State} {raw : List Byte} (h : raw.length ≤ s.params.cap) (hv : s.varValid = true) :
    exec (.decode raw) s = .next (s.finish ((decodeFrame s.params raw s.var).map .reading)) := by
  simp [exec, execDecode, hv, s.withinCap_of_le _ h]

theorem exec_decode_unset {s : State} {raw : List Byte} (h : raw.length ≤ s.params.cap) (hv : s.varValid = false) :
    exec (.decode raw) s = .next (s.refuse .variantNotSet) := by
  simp [exec, execDecode, hv, s.withinCap_of_le _ h]

theorem exec_vsetup_ok {s : State} {raw : List Byte} {v : DeviceVariant} (h : raw.length ≤ s.params.cap)
    (hd : detect raw = .ok v) : exec (.vsetup raw) s = .next ((s.holdVariant v).answer (.variant v)) := by
  simp only [exec, execVsetup, hd, s.withinCap_of_le _ h]

theorem exec_vsetup_error {s : State} {raw : List Byte} {e : HardError} (h : raw.length ≤ s.params.cap)
    (hd : detect raw = .error e) : exec (.vsetup raw) s = .next (s.raise e) := by
  simp only [exec, execVsetup, hd, s.withinCap_of_le _ h]

/-- What an instruction can do: it writes the reply and nothing else, or it is a VSETUP within capacity that detected a
variant, and holds it. -/
theorem exec_cases (i : Instr) (s : State) :
    OnlyReplies (exec i s) s ∨
    ∃ raw v, i = .vsetup raw ∧ raw.length ≤ s.params.cap ∧ detect raw = .ok v ∧
      exec i s = .next ((s.holdVariant v).answer (.variant v)) := by
  cases i with
  | deobf raw => exact .inl (onlyReplies_withinCap _ _ (finish_onlyReplies s _))
  | bitrev p => exact .inl (onlyReplies_withinCap _ _ ⟨_, rfl⟩)
  | vdet S => exact .inl (onlyReplies_withinCap _ _ (finish_onlyReplies s _))
  | digdec S => exact .inl (onlyReplies_withinCap _ _ (finish_onlyReplies s _))
  | anndec S v =>
    refine .inl (onlyReplies_withinCap _ _ ?_)
    cases variantOfCode v
    · exact ⟨_, rfl⟩
    · exact finish_onlyReplies s _
  | decode raw =>
    refine .inl (onlyReplies_withinCap _ _ ?_)
    split
    · exact finish_onlyReplies s _
    · exact ⟨_, rfl⟩
  | vsetup raw =>
    simp only [exec, execVsetup]
    cases hd : detect raw with
    | error e => exact .inl (onlyReplies_withinCap _ _ ⟨_, rfl⟩)
    | ok v =>
      obtain ⟨_, e⟩ | ⟨h, e⟩ := s.withinCap_cases raw.length s.params.cap ((s.holdVariant v).answer (.variant v))
      · exact .inl ⟨_, by rw [e]; rfl⟩
      · exact .inr ⟨raw, v, rfl, h, hd, by rw [e]⟩
  | reservedOp a => exact .inl ⟨_, rfl⟩
  | outOk => exact .inl ⟨_, rfl⟩
  | outOutOfRange => exact .inl ⟨_, rfl⟩
  | outMalformed => exact .inl ⟨_, rfl⟩
  | outRefused r => exact .inl ⟨_, rfl⟩
  | _ => exact .inl ⟨_, rfl⟩

/-- Every instruction answers a next state. -/
theorem exec_answers (i : Instr) (s : State) : ∃ t, exec i s = .next t := by
  obtain ⟨y, h⟩ | ⟨_, _, _, _, _, h⟩ := exec_cases i s <;> exact ⟨_, h⟩

/-- Two states with the same session register and parameters. -/
def SameBlock (s t : State) : Prop := t.params = s.params ∧ t.var = s.var ∧ t.varValid = s.varValid

/-- The same effect in two states: the same session register and the same reply, and nothing else written. -/
def SameEffect (o o' : Host.Outcome State Fault Refusal) (s t : State) : Prop :=
  ∃ v b y, o = .next { s with var := v, varValid := b, reply := some y } ∧
    o' = .next { t with var := v, varValid := b, reply := some y }

theorem sameEffect_reply {s t : State} (h : SameBlock s t) (y : Reply) :
    SameEffect (.next { s with reply := some y }) (.next { t with reply := some y }) s t :=
  ⟨s.var, s.varValid, y, rfl, by rw [← h.2.1, ← h.2.2]⟩

theorem sameEffect_withinCap {s t k k' : State} (h : SameBlock s t) (n cap : Nat)
    (hk : SameEffect (.next k) (.next k') s t) :
    SameEffect (.next (s.withinCap n cap k)) (.next (t.withinCap n cap k')) s t := by
  rcases Nat.lt_or_ge cap n with hl | hl
  · rw [s.withinCap_of_lt _ hl, t.withinCap_of_lt _ hl]; exact sameEffect_reply h _
  · rwa [s.withinCap_of_le _ hl, t.withinCap_of_le _ hl]

theorem sameEffect_finish {s t : State} (h : SameBlock s t) (x : Except HardError Result) :
    SameEffect (.next (s.finish x)) (.next (t.finish x)) s t := by
  cases x <;> exact sameEffect_reply h _

/-- An instruction reads the session register and the parameters alone: in two states that agree on them it has the same
effect. -/
theorem exec_sameEffect (i : Instr) {s t : State} (h : SameBlock s t) : SameEffect (exec i s) (exec i t) s t := by
  have hp := h.1
  cases i with
  | deobf raw => simp only [exec, execDeobf, hp]; exact sameEffect_withinCap h _ _ (sameEffect_finish h _)
  | bitrev p => simp only [exec, execBitrev, hp]; exact sameEffect_withinCap h _ _ (sameEffect_reply h _)
  | vdet S => simp only [exec, execVdet, hp]; exact sameEffect_withinCap h _ _ (sameEffect_finish h _)
  | digdec S => simp only [exec, execDigdec, hp]; exact sameEffect_withinCap h _ _ (sameEffect_finish h _)
  | anndec S c =>
    simp only [exec, execAnndec, hp]
    refine sameEffect_withinCap h _ _ ?_
    cases variantOfCode c
    · exact sameEffect_reply h _
    · exact sameEffect_finish h _
  | decode raw =>
    simp only [exec, execDecode, hp, h.2.1, h.2.2]
    refine sameEffect_withinCap h _ _ ?_
    split
    · exact sameEffect_finish h _
    · exact sameEffect_reply h _
  | vsetup raw =>
    simp only [exec, execVsetup, hp]
    refine sameEffect_withinCap h _ _ ?_
    cases detect raw with
    | ok v => exact ⟨v, true, _, rfl, rfl⟩
    | error e => exact sameEffect_reply h _
  | _ =>
    simp only [exec, execReservedOp, execSelVariant1, execSelVariant2, execSelVariant3, execSelVariant4, execSelUnknown,
      execVarcodeUnknown, execVarcodeVariant1, execVarcodeVariant2, execVarcodeVariant3, execVarcodeVariant4,
      execVarcodeReserved101, execVarcodeReserved110, execVarcodeReserved111, execSeg0, execSeg1, execSeg2, execSeg3,
      execSeg4, execSeg5, execSeg6, execSeg7, execSeg8, execSeg9, execSegA, execSegU, execSegT, execSegO, execSegL,
      execSegE, execSegF, execSegDash, execSegBlank, execOutOk, execOutOutOfRange, execOutMalformed, execOutRefused,
      State.lookSegment, hp]
    exact sameEffect_reply h _

/-- What a step can do. -/
theorem step_cases (s : State) :
    (s.requests = [] ∧ step s = .next { s with reply := none }) ∨
    (∃ rest, s.requests = .reset :: rest ∧ step s = .next { s with requests := rest }.applyReset) ∨
    (∃ r rest i, s.requests = .request r :: rest ∧ decode r = .ok i ∧ step s = exec i { s with requests := rest }) ∨
    (∃ r rest e, s.requests = .request r :: rest ∧ decode r = .error e ∧ step s = .fault (.noSuchRequest e)) := by
  unfold step
  split
  · exact .inl ⟨by assumption, rfl⟩
  · exact .inr (.inl ⟨_, by assumption, rfl⟩)
  · split
    · exact .inr (.inr (.inl ⟨_, _, _, by assumption, by assumption, rfl⟩))
    · exact .inr (.inr (.inr ⟨_, _, _, by assumption, by assumption, rfl⟩))

end Sys2Proof.Machine
end

