-- ==== Sys2Proof/Laws/Params.lean ====
section
/-! SUPPORT. The parameters of the reset block obey the laws. -/

namespace Sys2Proof.Config

/-- R30's law holds of the reset block's LBL_A, whatever the free table is. -/
theorem lblA_sixPlaceholders : 6 ≤ (lblA.toList.filter List.isEmpty).length := by
  unfold lblA
  split
  · assumption
  · decide

/-- The parameters of the reset block are lawful. -/
theorem params_lawful : params.Lawful :=
  ⟨Nat.le_add_left _ _, by simp [params], lblA_sixPlaceholders⟩

end Sys2Proof.Config
end

