-- ==== Sys2Proof/Laws/PerInstr.lean ====
section
/-! SUPPORT. Per instruction: decoding what the encoder gives returns the instruction. -/

namespace Sys2Proof.Laws.EncodesBack

/-- The request an instruction is encoded as decodes to that instruction. -/
def Statement (i : Instr) : Prop := i.WellFormed → decode (encode i) = .ok i

theorem deobf (raw : List Byte) : Statement (.deobf raw) := fun _ => rfl
theorem bitrev (p : List Byte) : Statement (.bitrev p) := fun _ => rfl
theorem vdet (S : Bits) : Statement (.vdet S) := fun _ => rfl
theorem digdec (S : Bits) : Statement (.digdec S) := fun _ => rfl
theorem anndec (S : Bits) (v : BitVec 3) : Statement (.anndec S v) := fun _ => rfl
theorem decode (raw : List Byte) : Statement (.decode raw) := fun _ => rfl
theorem vsetup (raw : List Byte) : Statement (.vsetup raw) := fun _ => rfl
theorem reservedOp (a : Operand) : Statement (.reservedOp a) := fun _ => rfl
theorem selVariant1 : Statement (.selVariant1) := fun _ => rfl
theorem selVariant2 : Statement (.selVariant2) := fun _ => rfl
theorem selVariant3 : Statement (.selVariant3) := fun _ => rfl
theorem selVariant4 : Statement (.selVariant4) := fun _ => rfl
theorem selUnknown (w : BitVec 8) : Statement (.selUnknown w) := by
  intro h
  simp only [Instr.WellFormed, Instr.wf, listedSelectors, Machine.literals] at h
  simp at h
  simp [Sys2Proof.decode, encode, decodeSel, bare, h]
theorem varcodeUnknown : Statement (.varcodeUnknown) := fun _ => rfl
theorem varcodeVariant1 : Statement (.varcodeVariant1) := fun _ => rfl
theorem varcodeVariant2 : Statement (.varcodeVariant2) := fun _ => rfl
theorem varcodeVariant3 : Statement (.varcodeVariant3) := fun _ => rfl
theorem varcodeVariant4 : Statement (.varcodeVariant4) := fun _ => rfl
theorem varcodeReserved101 : Statement (.varcodeReserved101) := fun _ => rfl
theorem varcodeReserved110 : Statement (.varcodeReserved110) := fun _ => rfl
theorem varcodeReserved111 : Statement (.varcodeReserved111) := fun _ => rfl
theorem seg0 : Statement (.seg0) := fun _ => rfl
theorem seg1 : Statement (.seg1) := fun _ => rfl
theorem seg2 : Statement (.seg2) := fun _ => rfl
theorem seg3 : Statement (.seg3) := fun _ => rfl
theorem seg4 : Statement (.seg4) := fun _ => rfl
theorem seg5 : Statement (.seg5) := fun _ => rfl
theorem seg6 : Statement (.seg6) := fun _ => rfl
theorem seg7 : Statement (.seg7) := fun _ => rfl
theorem seg8 : Statement (.seg8) := fun _ => rfl
theorem seg9 : Statement (.seg9) := fun _ => rfl
theorem segA : Statement (.segA) := fun _ => rfl
theorem segU : Statement (.segU) := fun _ => rfl
theorem segT : Statement (.segT) := fun _ => rfl
theorem segO : Statement (.segO) := fun _ => rfl
theorem segL : Statement (.segL) := fun _ => rfl
theorem segE : Statement (.segE) := fun _ => rfl
theorem segF : Statement (.segF) := fun _ => rfl
theorem segDash : Statement (.segDash) := fun _ => rfl
theorem segBlank (c : SegCode) : Statement (.segBlank c) := by
  intro h
  simp only [Instr.WellFormed, Instr.wf, listedSegments, Config.segDefaultRows] at h
  simp at h
  simp [Sys2Proof.decode, encode, decodeSeg, bare, h]
theorem outOk : Statement (.outOk) := fun _ => rfl
theorem outOutOfRange : Statement (.outOutOfRange) := fun _ => rfl
theorem outMalformed : Statement (.outMalformed) := fun _ => rfl
theorem outRefused (r : BitVec 2) : Statement (.outRefused r) := fun _ => rfl

end Sys2Proof.Laws.EncodesBack
end

