-- ==== Sys2Proof/Laws/Stages.lean ====
section
/-! SUPPORT. One lemma per stage function that says what it answers. -/

namespace Sys2Proof.Machine

@[simp] theorem keyLen_eq : keyLen = 20 := rfl

theorem deobf_ok {raw : List Byte} (h : raw.length ≤ 20) :
    deobf raw = .ok (List.zipWith (fun r k => r ^^^ k) raw literals.key) := by
  simp [deobf, Nat.not_lt.mpr h]

theorem deobf_error {raw : List Byte} (h : 20 < raw.length) : deobf raw = .error .outOfRange := by
  simp [deobf, h]

theorem deobf_length {raw plain : List Byte} (h : deobf raw = .ok plain) :
    plain.length = raw.length ∧ raw.length ≤ 20 := by
  rcases Nat.lt_or_ge 20 raw.length with hl | hl
  · simp [deobf_error hl] at h
  · rw [deobf_ok hl] at h
    have hk : literals.key.length = 20 := rfl
    obtain rfl := Except.ok.inj h
    simp [hk, hl]

@[simp] theorem rev8_length (b : Byte) : (rev8 b).length = 8 := by simp [rev8]

@[simp] theorem bitrev_nil : bitrev [] = [] := rfl

theorem bitrev_cons (b : Byte) (p : List Byte) : bitrev (b :: p) = rev8 b ++ bitrev p := rfl

@[simp] theorem bitrev_length (p : List Byte) : (bitrev p).length = 8 * p.length := by
  induction p with
  | nil => rfl
  | cons b p ih => simp [bitrev_cons, ih]; omega

/-- Address `8i + j` of the stream is bit `j` of byte `i` (20_memory.md R42). -/
theorem bitrev_getElem? (p : List Byte) (i j : Nat) (hj : j < 8) :
    (bitrev p)[8 * i + j]? = p[i]?.map (·.getLsbD j) := by
  induction p generalizing i with
  | nil => simp
  | cons b p ih =>
    cases i with
    | zero => simp [bitrev_cons, rev8, List.getElem?_append_left, hj]
    | succ i =>
      have : 8 * (i + 1) + j = 8 + (8 * i + j) := by omega
      simp [bitrev_cons, List.getElem?_append_right, this, ih]

theorem sym_eq_getElem? (S : Bits) (k : Nat) : sym S k = S[k]?.getD false := by
  simp [sym, List.getD_eq_getElem?_getD]

/-- A symbol of the stream of a PlainFrame. -/
theorem sym_bitrev (p : List Byte) (i j : Nat) (hj : j < 8) :
    sym (bitrev p) (8 * i + j) = (p.getD i 0#8).getLsbD j := by
  rw [sym_eq_getElem?, bitrev_getElem? p i j hj, List.getD_eq_getElem?_getD]
  cases p[i]? <;> simp

theorem window_length {S : Bits} {a n : Nat} (h : a + n ≤ S.length) : (window S a n).length = n := by
  simp [window]; omega

/-- Symbol `j` of a window is the symbol at address `a + j` (43_digit_decoder.md R121). -/
theorem sym_window {S : Bits} {a n j : Nat} (hj : j < n) : sym (window S a n) j = sym S (a + j) := by
  simp [sym_eq_getElem?, window, hj]

theorem memRead_ok {S : Bits} {a n : Nat} (h : a + n ≤ S.length) : memRead S a n = .ok (window S a n) := by
  simp [memRead, Nat.not_lt.mpr h]

theorem memRead_error {S : Bits} {a n : Nat} (h : S.length < a + n) : memRead S a n = .error .malformedFrame := by
  simp [memRead, h]

theorem vdet_ok {S : Bits} (h : 24 ≤ S.length) : vdet S = .ok (vsel (bitsPattern 8 (window S 16 8))) := by
  simp [vdet, literals, memRead_ok (S := S) (a := 16) (n := 8) h]

theorem vdet_error {S : Bits} (h : S.length < 24) : vdet S = .error .malformedFrame := by
  simp [vdet, literals, memRead_error (S := S) (a := 16) (n := 8) h]

/-- Component `k` of a mapped quadruple. -/
theorem mapFour_getElem {α β : Type} (f : α → β) (v : Vector α 4) (k : Fin 4) : (mapFour f v)[k] = f v[k] := by
  match k with
  | 0 => rfl
  | 1 => rfl
  | 2 => rfl
  | 3 => rfl

@[simp] theorem digNeed_eq : digNeed = 60 := rfl

theorem digdec_ok (p : Params) {S : Bits} (h : 60 ≤ S.length) :
    digdec p S = .ok ⟨mapFour (cellAt p S) #v[28, 36, 44, 52], displayOf (mapFour (cellAt p S) #v[28, 36, 44, 52])⟩ := by
  simp [digdec, Nat.not_lt.mpr h, literals]

theorem digdec_error (p : Params) {S : Bits} (h : S.length < 60) : digdec p S = .error .malformedFrame := by
  simp [digdec, h]

/-- The function window's scan keeps what it has and appends the set positions in order (R144). -/
theorem scanFn3_eq (S : Bits) (ps fpos : List Nat) : scanFn3 S ps fpos = fpos ++ ps.filter (sym S) := by
  induction ps generalizing fpos with
  | nil => simp [scanFn3]
  | cons p ps ih => cases h : sym S p <;> simp [scanFn3, ih, h]

/-- The label window's scan appends each set position to the list of its class, in order (R142). -/
theorem scanLabels_eq (S : Bits) (f : Flavour) (ps : List Nat) (acc : List Nat × List Nat) :
    scanLabels S f ps acc =
      (acc.1 ++ ps.filter (fun p => sym S p && decide (p ∈ funcPositions f)),
       acc.2 ++ ps.filter (fun p => sym S p && decide (p ∉ funcPositions f))) := by
  induction ps generalizing acc with
  | nil => simp [scanLabels]
  | cons p ps ih =>
    cases h : sym S p with
    | false => simp [scanLabels, ih, h]
    | true => by_cases hf : p ∈ funcPositions f <;> simp [scanLabels, ih, h, hf]

/-- The smallest stream of each flavour (R143). -/
theorem annNeed_eq (f : Flavour) : annNeed f = match f with | .A => 88 | .B => 80 := by cases f <;> rfl

theorem anndec_ok (p : Params) {S : Bits} (v : DeviceVariant) (h : annNeed (flavourOf v) ≤ S.length) :
    anndec p S v = .ok ⟨(scan S (flavourOf v)).1, (scan S (flavourOf v)).2,
      labels p (flavourOf v) (scan S (flavourOf v)).1, labels p (flavourOf v) (scan S (flavourOf v)).2⟩ := by
  simp [anndec, Nat.not_lt.mpr h]

theorem anndec_error (p : Params) {S : Bits} (v : DeviceVariant) (h : S.length < annNeed (flavourOf v)) :
    anndec p S v = .error .malformedFrame := by
  simp [anndec, h]

end Sys2Proof.Machine
end

