-- ==== Sys2Proof/Tests/Slice0.lean ====
section
/-! SUPPORT. The model's own tests: well-formedness, decoding of written words, one step per operation on vectors of
spec/95_test_vectors.md, and a witness for the hypotheses of each statement. Vectors marked (D) there use
SEG_ROM_DEFAULT. -/

namespace Sys2Proof.Tests

open Sys2Proof.Machine

/-! ### Helpers -/

/-- CAP 32, the default segment table, and the hypothetical labels of 95_test_vectors.md section 2.5. -/
def params : Params where
  cap := Config.CAP_DEFAULT
  segRom := Config.SEG_ROM_DEFAULT
  fn3A := #v[[], ['z'], []]
  lblA := ((Vector.replicate 28 []).set 27 ['x']).set 0 ['y']
  fn3B := #v[['a'], [], []]
  lblB := (Vector.replicate 16 []).set 0 ['b']

/-- A block just after reset. -/
def block : State := State.resetWith params

/-- A block that holds a variant. -/
def held (v : DeviceVariant) : State := block.holdVariant v

/-- A block whose host asks for these inputs. -/
def asked (l : List HostInput) : State := { block with requests := l }

/-- A stream of `n` symbols with 1 at the listed positions. -/
def stream (n : Nat) (ps : List Nat) : Bits := (List.range n).map fun p => ps.contains p

def frameA : List Byte := [0x41, 0x21, 0x70, 0x41, 0x08, 0x5C, 0x7D, 0x6F, 0x26, 0xAA, 0xBB]
def frameB : List Byte := [0x41, 0x21, 0x71, 0xBF, 0x8C, 0xA2, 0x17, 0x86, 0x07, 0x2A]
def frameF : List Byte := [0x41, 0x21, 0x70, 0x55, 0x62, 0x36, 0xD9, 0x7A, 0x66, 0xAA]
def zeros (n : Nat) : List Byte := List.replicate n 0

/-! ### Well-formedness: an ill-formed term for each check -/

theorem test_wf_refuses_listed_selector : ¬ (Instr.selUnknown 0b11000000#8).WellFormed := by decide
theorem test_wf_refuses_listed_segment : ¬ (Instr.segBlank 0b1110111#7).WellFormed := by decide
theorem test_wf_accepts_unlisted : (Instr.selUnknown 0b11001110#8).WellFormed ∧ (Instr.segBlank 0#7).WellFormed := by decide

/-! ### Decoding of words written out from the spec's encodings -/

/-- 30_encoding.md R70. -/
theorem test_decode_op3 :
    decode ⟨.op 0b000#3, .bytes [0xFF]⟩ = .ok (.deobf [0xFF]) ∧
    decode ⟨.op 0b001#3, .bytes [0x01]⟩ = .ok (.bitrev [0x01]) ∧
    decode ⟨.op 0b010#3, .symbols [true]⟩ = .ok (.vdet [true]) ∧
    decode ⟨.op 0b011#3, .symbols [false]⟩ = .ok (.digdec [false]) ∧
    decode ⟨.op 0b100#3, .symbolsVariant [true] 0b010#3⟩ = .ok (.anndec [true] 0b010#3) ∧
    decode ⟨.op 0b101#3, .bytes frameA⟩ = .ok (.decode frameA) ∧
    decode ⟨.op 0b110#3, .bytes frameB⟩ = .ok (.vsetup frameB) ∧
    decode ⟨.op 0b111#3, .none⟩ = .ok (.reservedOp .none) := by decide

/-- 42_variant_detector.md R111. -/
theorem test_decode_sel8 :
    decode ⟨.sel 0b11000000#8, .none⟩ = .ok .selVariant1 ∧ decode ⟨.sel 0b01000000#8, .none⟩ = .ok .selVariant2 ∧
    decode ⟨.sel 0b10000000#8, .none⟩ = .ok .selVariant3 ∧ decode ⟨.sel 0b00100000#8, .none⟩ = .ok .selVariant4 ∧
    decode ⟨.sel 0b11001110#8, .none⟩ = .ok (.selUnknown 0b11001110#8) := by decide

/-- 30_encoding.md R75. -/
theorem test_decode_var3 :
    decode ⟨.var 0b000#3, .none⟩ = .ok .varcodeUnknown ∧ decode ⟨.var 0b001#3, .none⟩ = .ok .varcodeVariant1 ∧
    decode ⟨.var 0b010#3, .none⟩ = .ok .varcodeVariant2 ∧ decode ⟨.var 0b011#3, .none⟩ = .ok .varcodeVariant3 ∧
    decode ⟨.var 0b100#3, .none⟩ = .ok .varcodeVariant4 ∧ decode ⟨.var 0b101#3, .none⟩ = .ok .varcodeReserved101 ∧
    decode ⟨.var 0b110#3, .none⟩ = .ok .varcodeReserved110 ∧ decode ⟨.var 0b111#3, .none⟩ = .ok .varcodeReserved111 := by
  decide

/-- 10_state.md R28. -/
theorem test_decode_seg7_digits :
    decode ⟨.seg 0b1110111#7, .none⟩ = .ok .seg0 ∧ decode ⟨.seg 0b0010010#7, .none⟩ = .ok .seg1 ∧
    decode ⟨.seg 0b1011101#7, .none⟩ = .ok .seg2 ∧ decode ⟨.seg 0b1011011#7, .none⟩ = .ok .seg3 ∧
    decode ⟨.seg 0b0111010#7, .none⟩ = .ok .seg4 ∧ decode ⟨.seg 0b1101011#7, .none⟩ = .ok .seg5 ∧
    decode ⟨.seg 0b1101111#7, .none⟩ = .ok .seg6 ∧ decode ⟨.seg 0b1010010#7, .none⟩ = .ok .seg7 ∧
    decode ⟨.seg 0b1111111#7, .none⟩ = .ok .seg8 ∧ decode ⟨.seg 0b1111011#7, .none⟩ = .ok .seg9 := by decide

/-- 10_state.md R28, 43_digit_decoder.md R125. -/
theorem test_decode_seg7_letters :
    decode ⟨.seg 0b1111110#7, .none⟩ = .ok .segA ∧ decode ⟨.seg 0b0000111#7, .none⟩ = .ok .segU ∧
    decode ⟨.seg 0b0101101#7, .none⟩ = .ok .segT ∧ decode ⟨.seg 0b0001111#7, .none⟩ = .ok .segO ∧
    decode ⟨.seg 0b0100101#7, .none⟩ = .ok .segL ∧ decode ⟨.seg 0b1101101#7, .none⟩ = .ok .segE ∧
    decode ⟨.seg 0b1101100#7, .none⟩ = .ok .segF ∧ decode ⟨.seg 0b0001000#7, .none⟩ = .ok .segDash ∧
    decode ⟨.seg 0b0000000#7, .none⟩ = .ok (.segBlank 0#7) := by decide

/-- 30_encoding.md R76. -/
theorem test_decode_out2 :
    decode ⟨.out 0b00#2, .none⟩ = .ok .outOk ∧ decode ⟨.out 0b01#2, .none⟩ = .ok .outOutOfRange ∧
    decode ⟨.out 0b10#2, .none⟩ = .ok .outMalformed ∧
    decode ⟨.out 0b11#2, .reason 0b10#2⟩ = .ok (.outRefused 0b10#2) := by decide

/-- An operand of another kind is rejected by name (30_encoding.md R70: VDET takes a bitstream). -/
theorem test_decode_rejects_wrong_operand :
    decode ⟨.op 0b010#3, .bytes [0x01]⟩ = .error (.operandKind (.op 0b010#3) (.bytes [0x01])) := by decide

/-- The numbers the opcode table's rows SEL_VARIANT1 to SEL_VARIANT4 carry. -/
theorem test_table_words :
    decodeTableWord 8 192 = some .selVariant1 ∧ decodeTableWord 8 64 = some .selVariant2 ∧
    decodeTableWord 8 128 = some .selVariant3 ∧ decodeTableWord 8 32 = some .selVariant4 ∧
    decodeTableWord 7 0b1101100 = some .segF ∧ decodeTableWord 3 6 = some (.vsetup []) ∧
    decodeTableWord 2 1 = some .outOutOfRange := by decide

/-- The first step after reset runs the placed row (42_variant_detector.md R111). -/
theorem test_first_step_runs_table_word :
    replyOf (step (State.reset.withFetchWord 8 64)) = some (.ok (.variant .variant2)) := by decide

/-! ### One step per operation, expected results from 95_test_vectors.md -/

/-- Section 2.1. -/
theorem test_deobf : replyOf (exec (.deobf [0x12, 0x34, 0x56]) block) = some (.ok (.bytes [0x53, 0x15, 0x25])) := by decide

/-- Section 2.1: twenty-one bytes whose first twenty are the key (R92: the key is not cycled). -/
theorem test_deobf_over_key_length :
    replyOf (exec (.deobf (literals.key ++ [0x41])) block) = some (.err .outOfRange) := by decide

/-- Section 2.2: [03 A0] is 11000000 00000101. -/
theorem test_bitrev : replyOf (exec (.bitrev [0x03, 0xA0]) block) = some (.ok (.stream
    [true, true, false, false, false, false, false, false, false, false, false, false, false, true, false, true])) := by decide

/-- Section 2.3: PlainFrame [00 00 C0] is Unknown; a model without the bit reversal would say Variant1. -/
theorem test_vdet_bit_order :
    replyOf (exec (.vdet (bitrev [0x00, 0x00, 0xC0])) block) = some (.ok (.variant .unknown)) := by decide

/-- R116: N = 23 is malformed, N = 24 is not. -/
theorem test_vdet_bound : replyOf (exec (.vdet (stream 23 [16, 17])) block) = some (.err .malformedFrame) ∧
    replyOf (exec (.vdet (stream 24 [16, 17])) block) = some (.ok (.variant .variant1)) := by decide

/-- Section 2.4 row 7 (D): cells and display of frame A's windows. -/
theorem test_digdec : replyOf (exec (.digdec (stream 60 [28, 33, 35, 37, 39, 40, 42, 43, 44, 47, 48, 49, 50, 51, 54, 57, 58, 59]))
    block) = some (.ok (.digits ⟨#v[⟨true, 0b0010010#7, some .d1⟩, ⟨false, 0b1011101#7, some .d2⟩,
      ⟨true, 0b1011011#7, some .d3⟩, ⟨false, 0b0111010#7, some .d4⟩], ['-', '1', '2', '.', '3', '4']⟩)) := by decide

/-- R130: N = 59 is malformed; all 0 displays "0". -/
theorem test_digdec_bound_and_zero : replyOf (exec (.digdec (stream 59 [])) block) = some (.err .malformedFrame) ∧
    (digdec params (stream 60 [])).toOption.map (·.display) = some ['0'] := by decide

/-- Section 2.5: the label example. -/
theorem test_anndec_flavour_A : replyOf (exec (.anndec (stream 88 [26, 60, 70, 87]) 0b001#3) block) =
    some (.ok (.annotations ⟨[26, 60], [87, 70], [['z'], ['y']], [['x']]⟩)) := by decide

/-- Section 2.5: {25,27,60..64,69,70,79} under Variant2, N = 80. -/
theorem test_anndec_flavour_B :
    (anndec params (stream 80 [25, 27, 60, 61, 62, 63, 64, 69, 70, 79]) .variant2).toOption.map (fun a => (a.fpos, a.upos)) =
    some ([27, 25, 69, 64], [79, 70]) := by decide

/-- Section 4, program 1, step 3 (D). -/
theorem test_decode_frameA : replyOf (exec (.decode frameA) (held .variant1)) = some (.ok (.reading
    ⟨⟨#v[⟨true, 0b0010010#7, some .d1⟩, ⟨false, 0b1011101#7, some .d2⟩, ⟨true, 0b1011011#7, some .d3⟩,
      ⟨false, 0b0111010#7, some .d4⟩], ['-', '1', '2', '.', '3', '4']⟩,
     ⟨[26, 60], [87, 70], [['z'], ['y']], [['x']]⟩, .variant1⟩)) := by decide

/-- Section 3.6: frame F under Variant1 is malformed, with no display; section 4, program 1, step 1. -/
theorem test_decode_stops : replyOf (exec (.decode frameF) (held .variant1)) = some (.err .malformedFrame) ∧
    replyOf (exec (.decode frameA) block) = some (.refused .variantNotSet) := by decide

/-- Section 4, program 2, step 1. -/
theorem test_vsetup : exec (.vsetup frameB) block =
    .next { block with var := .variant2, varValid := true, reply := some (.ok (.variant .variant2)) } := by rfl

/-- Section 4, program 3, step 1: a failed VSETUP writes nothing. -/
theorem test_vsetup_fails : exec (.vsetup [0x41, 0x21]) block = .next { block with reply := some (.err .malformedFrame) } := by
  rfl

/-- Section 4, program 4, step 12. -/
theorem test_reserved_op : replyOf (exec (.reservedOp .none) block) = some (.refused .reservedOp) := by decide

/-- 42_variant_detector.md R116: S[16..23] = 10100000 is Unknown. -/
theorem test_sel_unknown : replyOf (exec (.selUnknown 0b10100000#8) block) = some (.ok (.variant .unknown)) := by decide

/-- 30_encoding.md R75: code 100. -/
theorem test_varcode : replyOf (exec .varcodeVariant4 block) = some (.ok (.variant .variant4)) := by decide

/-- 10_state.md R28 (D): 1101100 is F, 1101101 is E. -/
theorem test_segments : replyOf (exec .segF block) = some (.ok (.glyph (some .capF))) ∧
    replyOf (exec .segE block) = some (.ok (.glyph (some .capE))) := by decide

/-- 30_encoding.md R76, R77 at the port: reason 10; glyph code of the dash. -/
theorem test_ports : (present (.refused .reservedVariantCode)) = ⟨0b11#2, some 0b10#2, .none⟩ ∧
    (present (.ok (.glyph (some .dash)))).fields = .glyph 17#5 ∧ (present (.ok (.glyph none))).fields = .glyph 31#5 := by decide

/-- Section 4, program 4, steps 13 and 14: a RESET drops the held variant. -/
theorem test_reset_then_decode :
    trace 2 { held .variant2 with requests := [.reset, .ofInstr (.decode frameB)] } =
      [none, some (.refused .variantNotSet)] := by decide

/-- The literals of the tables agree with the rows of the opcode table (R64: SEL bytes 0x03, 0x02, 0x01, 0x04). -/
theorem test_selector_bytes : [0x03#8, 0x02#8, 0x01#8, 0x04#8].map (fun b => vsel (bitsPattern 8 (rev8 b))) =
    [.variant1, .variant2, .variant3, .variant4] := by decide

/-! ### Witnesses: the hypotheses of each statement can be met, at the ends of their ranges -/

theorem witness_DeobfXorsEachByteWithItsKeyByte : 21 ≤ block.params.cap ∧ (zeros 20).length ≤ block.params.cap ∧
    (zeros 20).length ≤ 20 ∧ (zeros 20)[19]? = some 0 ∧ literals.key[19]? = some 0xBB ∧
    (zeros 21).length ≤ block.params.cap ∧ 20 < (zeros 21).length := by decide

theorem witness_DeobfTwiceGivesTheOperandBack : 21 ≤ block.params.cap ∧ frameA.length ≤ 20 ∧ (zeros 20).length ≤ 20 := by decide

theorem witness_BitrevEmitsEachByteLeastSignificantFirst :
    frameA.length ≤ block.params.cap ∧ frameA[10]? = some 0xBB ∧ (7 : Nat) < 8 ∧ (zeros 32).length ≤ block.params.cap := by decide

theorem witness_BitrevLosesNothing : frameA.length ≤ block.params.cap ∧ frameB.length ≤ block.params.cap ∧
    replyOf (exec (.bitrev frameA) block) = replyOf (exec (.bitrev frameA) block) := by decide

theorem witness_MemReadChecksItsBoundAndReadsAscending : 1 ≤ 8 ∧ (stream 23 []).length < 16 + 8 ∧
    16 + 8 ≤ (stream 24 []).length := by decide

theorem witness_VdetClassifiesTheSelectorWindow : (stream 23 []).length ≤ 8 * block.params.cap ∧
    (stream 23 []).length < 24 ∧ (stream 24 [17]).length ≤ 8 * block.params.cap ∧ 24 ≤ (stream 24 [17]).length ∧
    ((stream 24 [17]).drop 16).take 8 = [false, true, false, false, false, false, false, false] := by decide

theorem witness_DetectionReadsOnlyTheSelector :
    (stream 24 [0, 17]).length ≤ 8 * block.params.cap ∧ (stream 25 [17, 24]).length ≤ 8 * block.params.cap ∧
    24 ≤ (stream 24 [0, 17]).length ∧ 24 ≤ (stream 25 [17, 24]).length ∧
    (∀ k < 24, 16 ≤ k → (stream 24 [0, 17])[k]? = (stream 25 [17, 24])[k]?) ∧
    21 ≤ block.params.cap ∧ 3 ≤ frameA.length ∧ frameA.length ≤ 20 ∧ 3 ≤ frameF.length ∧ frameF.length ≤ 20 ∧
    frameA[2]? = frameF[2]? := by decide

theorem witness_DigdecDecodesTheFourWindows : (stream 59 []).length ≤ 8 * block.params.cap ∧ (stream 59 []).length < 60 ∧
    (stream 60 []).length ≤ 8 * block.params.cap ∧ 60 ≤ (stream 60 []).length := by decide

theorem witness_DigitCellsInByteCoordinates : 8 ≤ (zeros 8).length ∧ (zeros 8).length ≤ block.params.cap ∧
    (zeros 8)[3 + 3]? = some 0 ∧ (zeros 8)[3 + 4]? = some 0 := by decide

theorem witness_AllZeroDigitsDisplayZero : block.params.Lawful ∧ 60 ≤ (stream 61 [27, 60]).length ∧
    (stream 61 [27, 60]).length ≤ 8 * block.params.cap ∧
    (∀ k < 60, 28 ≤ k → (stream 61 [27, 60])[k]? = some false) := by decide

theorem witness_DigdecReadsOnlyTheDigitWindows : 60 ≤ (stream 61 [27, 28, 59]).length ∧
    (stream 61 [27, 28, 59]).length ≤ 8 * block.params.cap ∧ 60 ≤ (stream 60 [28, 59]).length ∧
    (stream 60 [28, 59]).length ≤ 8 * block.params.cap ∧
    (∀ k < 60, 28 ≤ k → (stream 61 [27, 28, 59])[k]? = (stream 60 [28, 59])[k]?) := by decide

theorem witness_AnndecScansFlavourA : (stream 87 []).length ≤ 8 * block.params.cap ∧ (stream 87 []).length < 88 ∧
    (stream 88 [60, 87]).length ≤ 8 * block.params.cap ∧ 88 ≤ (stream 88 [60, 87]).length := by decide

theorem witness_AnndecScansFlavourB : (stream 79 []).length ≤ 8 * block.params.cap ∧ (stream 79 []).length < 80 ∧
    (stream 80 [64, 79]).length ≤ 8 * block.params.cap ∧ 80 ≤ (stream 80 [64, 79]).length := by decide

theorem witness_ReservedVariantCodeIsRefused : (stream 0 []).length ≤ 8 * block.params.cap ∧
    replyOf (exec (.anndec (stream 0 []) 0b101#3) block) = some (.refused .reservedVariantCode) := by decide

/-- A completed ANNDEC, for the statements about its result (flavour A and flavour B). -/
theorem witness_AnnotationPositionsAreOrderedAndDistinct :
    (∃ t, exec (.anndec (stream 88 [25, 60, 87]) 0b100#3) block = .next t ∧
      t.reply = some (.ok (.annotations ⟨[25, 60], [87], [['y']], [['x']]⟩))) ∧
    (∃ t, exec (.anndec (stream 80 [25, 64]) 0b010#3) block = .next t ∧
      t.reply = some (.ok (.annotations ⟨[25, 64], [], [['a'], ['b']], []⟩))) := ⟨⟨_, rfl, by decide⟩, ⟨_, rfl, by decide⟩⟩

theorem witness_DistinctLabelsComeOutOnce : block.params.DistinctA ∧ block.params.DistinctB ∧
    (∃ t, exec (.anndec (stream 88 [26, 60, 87]) 0b000#3) block = .next t ∧
      t.reply = some (.ok (.annotations ⟨[26, 60], [87], [['z'], ['y']], [['x']]⟩))) :=
  ⟨by decide, by decide, _, rfl, by decide⟩

theorem witness_PositionListsAreRecoveredFromThePort :
    ∃ t, exec (.anndec (stream 80 [27, 64, 79]) 0b010#3) block = .next t ∧
      t.reply = some (.ok (.annotations ⟨[27, 64], [79], [['b']], []⟩)) := ⟨_, rfl, by decide⟩

/-- The ends of the lengths that each clause admits. -/
theorem witness_PortPresentsTheResultOfEachOperation : 21 ≤ (held .variant2).params.cap ∧ (zeros 20).length ≤ 20 ∧
    (zeros 32).length ≤ (held .variant2).params.cap ∧ 24 ≤ (stream 24 []).length ∧ 3 ≤ (zeros 3).length ∧
    60 ≤ (stream 60 []).length ∧ 88 ≤ (stream 88 []).length ∧ (stream 88 []).length ≤ 8 * (held .variant2).params.cap ∧
    (held .variant2).varValid = true ∧ (if (held .variant2).var = .variant2 then 10 else 11) ≤ frameB.length ∧
    (if (held .unknown).var = .variant2 then 10 else 11) ≤ frameA.length ∧ frameB.length ≤ 20 := by decide

/-- Position 61 is a placeholder of the test's tables, of class unit, and position 63 one of class function. -/
theorem witness_SixFlagsOfFlavourAHaveNoLabel : block.params.Lawful ∧ 88 ≤ (stream 88 [61]).length ∧
    (stream 88 [61]).length ≤ 8 * block.params.cap ∧
    (∀ k < 88, (25 ≤ k ∧ k < 28) ∨ 60 ≤ k → (stream 88 [61])[k]? = some (k == 61)) ∧
    replyOf (exec (.anndec (stream 88 [61]) 0b011#3) block) = some (.ok (.annotations ⟨[], [61], [], []⟩)) ∧
    replyOf (exec (.anndec (stream 88 [63]) 0b000#3) block) = some (.ok (.annotations ⟨[63], [], [], []⟩)) := by decide

theorem witness_DecodeIsItsStagesInOrder : 21 ≤ (held .variant2).params.cap ∧ (held .variant2).varValid = true ∧
    frameB.length ≤ 20 ∧ (if (held .variant2).var = .variant2 then 80 else 88) ≤ 8 * frameB.length ∧
    (if (held .unknown).var = .variant2 then 80 else 88) ≤ 8 * frameA.length := by decide

theorem witness_DecodeErrsByLengthAlone : 21 ≤ (held .variant1).params.cap ∧ (held .variant1).varValid = true ∧
    (zeros 21).length ≤ (held .variant1).params.cap ∧ 20 < (zeros 21).length ∧
    frameF.length < (if (held .variant1).var = .variant2 then 10 else 11) ∧
    (if (held .variant2).var = .variant2 then 10 else 11) ≤ frameF.length ∧ (zeros 20).length ≤ 20 := by decide

theorem witness_DecodeWithoutVariantIsRefused : block.varValid = false ∧ (zeros 21).length ≤ block.params.cap := by decide

theorem witness_VsetupHoldsTheVariantOfByteTwo : 21 ≤ block.params.cap ∧ (zeros 21).length ≤ block.params.cap ∧
    20 < (zeros 21).length ∧ (zeros 2).length < 3 ∧ (zeros 3).length ≤ 20 ∧ (zeros 3)[2]? = some 0 ∧
    frameA[2]? = some 0x70 := by decide

theorem witness_SecondVsetupOverwritesTheFirst : 21 ≤ block.params.cap ∧ 3 ≤ frameB.length ∧ frameB.length ≤ 20 ∧
    ∃ t, exec (.vsetup frameA) block = .next t ∧ t.reply = some (.ok (.variant .variant1)) :=
  ⟨by decide, by decide, by decide, _, rfl, by decide⟩

theorem witness_FlavourAVariantsDecodeAlike : ∃ r : Reading,
    exec (.decode frameA) { held .variant1 with var := .unknown } =
      .next { held .variant1 with var := .unknown, reply := some (.ok (.reading r)) } := by
  have hd : ∃ r, decodeFrame params frameA .unknown = .ok r := by
    have h : (decodeFrame params frameA .unknown).toOption.isSome = true := by decide
    cases e : decodeFrame params frameA .unknown with
    | ok r => exact ⟨r, rfl⟩
    | error x => rw [e] at h; cases h
  obtain ⟨r, hr⟩ := hd
  refine ⟨r, ?_⟩
  rw [exec_decode (by decide) rfl]
  exact congrArg (fun x => Host.Outcome.next (State.finish _ (Except.map Result.reading x))) hr

/-- Flavour A: frame A against itself with another selector and other bits below address 25 (R48; byte 3 differs in
bit 0). Flavour B: frame B against itself with other bits in [60,64). -/
theorem witness_DecodeIgnoresTheBitsNoStageReads :
    (frameA.length = ([0x00, 0x00, 0x71, 0x40] ++ frameA.drop 4).length ∧ ∀ i j : Nat, j < 8 →
      (if (held .variant1).var = .variant2 then (25 ≤ 8 * i + j ∧ 8 * i + j < 60) ∨ (64 ≤ 8 * i + j ∧ 8 * i + j < 80)
       else 25 ≤ 8 * i + j ∧ 8 * i + j < 88) →
      frameA[i]?.map (·.getLsbD j) = ([0x00, 0x00, 0x71, 0x40] ++ frameA.drop 4 : List Byte)[i]?.map (·.getLsbD j)) ∧
    (frameB.length = (frameB.set 7 0x76).length ∧ ∀ i j : Nat, j < 8 →
      (if (held .variant2).var = .variant2 then (25 ≤ 8 * i + j ∧ 8 * i + j < 60) ∨ (64 ≤ 8 * i + j ∧ 8 * i + j < 80)
       else 25 ≤ 8 * i + j ∧ 8 * i + j < 88) →
      frameB[i]?.map (·.getLsbD j) = (frameB.set 7 0x76)[i]?.map (·.getLsbD j)) := by
  have hA : ∀ i < 11, ∀ j < 8, 25 ≤ 8 * i + j → frameA[i]?.map (·.getLsbD j) =
      ([0x00, 0x00, 0x71, 0x40] ++ frameA.drop 4 : List Byte)[i]?.map (·.getLsbD j) := by decide
  have hB : ∀ i < 10, ∀ j < 8, 8 * i + j < 60 ∨ 64 ≤ 8 * i + j → frameB[i]?.map (·.getLsbD j) =
      (frameB.set 7 0x76)[i]?.map (·.getLsbD j) := by decide
  refine ⟨⟨rfl, fun i j hj h => ?_⟩, rfl, fun i j hj h => ?_⟩
  · rw [if_neg (by decide)] at h
    exact hA i (by omega) j hj h.1
  · rw [if_pos (show (held .variant2).var = .variant2 from rfl)] at h
    exact hB i (by omega) j hj (by omega)

theorem witness_OperandOverCapacityIsRefused : block.params.cap < (zeros 33).length ∧
    8 * block.params.cap < (List.replicate 257 true).length := ⟨by decide, by rw [List.length_replicate]; decide⟩

theorem witness_SelectorRowsAnswerTheirVariant : (0b11000001#8 : BitVec 8) ≠ 0b11000000#8 ∧
    (0b11000001#8 : BitVec 8) ≠ 0b01000000#8 ∧ (0b11000001#8 : BitVec 8) ≠ 0b10000000#8 ∧
    (0b11000001#8 : BitVec 8) ≠ 0b00100000#8 := by decide

theorem witness_SegmentRowsOfTheDefaultRomAnswerTheirGlyph :
    block.params.segRom = Config.SEG_ROM_DEFAULT ∧ (Instr.segBlank 0#7).WellFormed := ⟨rfl, by decide⟩

theorem witness_StepRunsTheDecodedRequest :
    (asked [.ofInstr (.decode frameA)]).requests = .request ⟨.op 0b101#3, .bytes frameA⟩ :: [] ∧
    decode ⟨.op 0b101#3, .bytes frameA⟩ = .ok (.decode frameA) := ⟨rfl, by decide⟩

theorem witness_StepStopsOnlyOnWhatIsNoRequest :
    decode ⟨.op 0b101#3, .none⟩ = .error (.operandKind (.op 0b101#3) .none) ∧ Presentable .reset := ⟨by decide, trivial⟩

theorem witness_ResetInputClearsTheValidBit : (asked [.reset]).requests = .reset :: [] := rfl

theorem witness_IdleBlockDoesNothing : block.requests = [] := rfl

theorem witness_DecodeAfterResetIsRefused : frameA.length ≤ (asked [.reset, .ofInstr (.decode frameA)]).params.cap ∧
    (asked [.reset, .ofInstr (.decode frameA)]).requests = .reset :: .ofInstr (.decode frameA) :: [] := ⟨by decide, rfl⟩

theorem witness_EveryStepKeepsTheInvariant : Inv block ∧ ∃ t, step (asked [.ofInstr (.deobf frameA)]) = .next t :=
  ⟨⟨by decide, fun _ h => nomatch h⟩, _, rfl⟩

theorem witness_DecodeInvertsEncode : (Instr.decode frameA).WellFormed ∧
    encode (.decode frameA) = ⟨.op 0b101#3, .bytes frameA⟩ := ⟨by decide, rfl⟩

theorem witness_OnlyResetAndVsetupWriteTheSessionRegister :
    ∃ t, step (asked [.ofInstr (.vsetup frameB)]) = .next t ∧ t.varValid ≠ (asked [.ofInstr (.vsetup frameB)]).varValid ∧
      (asked [.ofInstr (.vsetup frameB)]).varValid = false ∧ t.varValid = true := ⟨_, rfl, by decide, by decide, by decide⟩

theorem witness_NoStepWritesTheParameters : ∃ t, step (asked [.reset]) = .next t := ⟨_, rfl⟩

theorem witness_ErrorsAndRefusalsWriteNoState :
    (∃ t, exec (.vsetup (zeros 21)) block = .next t ∧ t.reply = some (.err .outOfRange)) ∧
    (∃ t, exec (.decode frameA) block = .next t ∧ t.reply = some (.refused .variantNotSet)) :=
  ⟨⟨_, rfl, by decide⟩, ⟨_, rfl, by decide⟩⟩

theorem witness_FailedRequestLeavesNoTrace :
    (asked [.ofInstr (.decode frameA)]).requests = .request (encode (.decode frameA)) :: [] ∧
    ∃ t, step (asked [.ofInstr (.decode frameA)]) = .next t ∧ t.reply = some (.refused .variantNotSet) :=
  ⟨rfl, _, rfl, by decide⟩

theorem witness_UnsetVariantIsNeverObserved : (asked [.ofInstr (.decode frameA)]).varValid = false := rfl

theorem witness_AnswersDoNotDependOnEarlierRequests :
    (∀ i ∈ [Instr.decode frameA, .segBlank 0#7], i.WellFormed) ∧ (∀ raw, Instr.decode frameA ≠ .vsetup raw) ∧
    (∀ raw, Instr.segBlank 0#7 ≠ .vsetup raw) ∧
    (asked ([Instr.decode frameA, .segBlank 0#7].map HostInput.ofInstr ++ [.reset])).requests =
      [Instr.decode frameA, .segBlank 0#7].map HostInput.ofInstr ++ [.reset] :=
  ⟨by decide, fun _ => nofun, fun _ => nofun, rfl⟩

theorem witness_SessionDecodesEveryFrameWithTheDetectedVariant :
    21 ≤ params.cap ∧ detect frameB = .ok .variant2 ∧ (∀ f ∈ [frameB, frameB.take 9, frameF], f.length ≤ params.cap) ∧
    (asked (.ofInstr (.vsetup frameB) :: [frameB, frameB.take 9, frameF].map (fun f => .ofInstr (.decode f)))).requests =
      .ofInstr (.vsetup frameB) :: [frameB, frameB.take 9, frameF].map (fun f => .ofInstr (.decode f)) :=
  ⟨by decide, by decide, by decide, rfl⟩

end Sys2Proof.Tests
end

section
/-! SUPPORT. What the annotation scan visits and which labels it names (44_annotation_decoder.md). -/

namespace Sys2Proof.Machine

/-- The positions a flavour's scan visits, in scan order (R144, R147, R151). -/
def visited (f : Flavour) : List Nat := descending literals.fn3 ++ descending (labelWindow f)

theorem visited_nodup (f : Flavour) : (visited f).Nodup := by cases f <;> decide

theorem descending_labelWindow_pairwise (f : Flavour) : (descending (labelWindow f)).Pairwise (· > ·) := by
  cases f <;> decide

theorem mem_descending {w : Nat × Nat} {p : Nat} : p ∈ descending w ↔ w.1 ≤ p ∧ p < w.2 := by
  simp [descending]; omega

/-- Both label windows lie in the port's window of positions (R145, R149). -/
theorem mem_labelWindow_bounds {f : Flavour} {p : Nat} (h : p ∈ descending (labelWindow f)) : 60 ≤ p ∧ p < 88 := by
  rw [mem_descending] at h
  cases f with
  | A => exact h
  | B =>
    obtain ⟨hlo, hhi⟩ : 64 ≤ p ∧ p < 80 := h
    omega

theorem mem_visited_bounds {f : Flavour} {p : Nat} (h : p ∈ visited f) : (25 ≤ p ∧ p < 28) ∨ (60 ≤ p ∧ p < 88) := by
  obtain h | h := List.mem_append.1 h
  · exact .inl (mem_descending.1 h)
  · exact .inr (mem_labelWindow_bounds h)

/-- The scan keeps the set positions of the two windows and splits those of the label window by class. -/
theorem scan_eq (S : Bits) (f : Flavour) :
    scan S f =
      ((descending literals.fn3).filter (sym S) ++
        ((descending (labelWindow f)).filter (sym S)).filter (fun p => decide (p ∈ funcPositions f)),
       ((descending (labelWindow f)).filter (sym S)).filter (fun p => !decide (p ∈ funcPositions f))) := by
  simp [scan, scanFn3_eq, scanLabels_eq, List.filter_filter, Bool.and_comm]

/-- The two position lists together are the set positions that the scan visits. -/
theorem scan_perm (S : Bits) (f : Flavour) :
    ((scan S f).1 ++ (scan S f).2).Perm ((visited f).filter (sym S)) := by
  rw [scan_eq, visited, List.filter_append, List.append_assoc]
  exact (List.filter_append_perm _ _).append_left _

theorem scan_nodup (S : Bits) (f : Flavour) : ((scan S f).1 ++ (scan S f).2).Nodup :=
  (scan_perm S f).nodup_iff.2 ((visited_nodup f).filter _)

theorem scan_upos_sublist (S : Bits) (f : Flavour) : (scan S f).2.Sublist (descending (labelWindow f)) := by
  rw [scan_eq]
  exact List.filter_sublist.trans List.filter_sublist

theorem mem_scan_fpos_bounds {S : Bits} {f : Flavour} {p : Nat} (h : p ∈ (scan S f).1) :
    (25 ≤ p ∧ p < 28) ∨ (60 ≤ p ∧ p < 88) :=
  mem_visited_bounds (List.mem_of_mem_filter ((scan_perm S f).mem_iff.1 (List.mem_append_left _ h)))

theorem ne_nil_of_mem_labels {t : Params} {f : Flavour} {ps : List Nat} {l : Text} (h : l ∈ labels t f ps) : l ≠ [] := by
  simpa using (List.mem_filter.1 h).2

end Sys2Proof.Machine
end

section
/-! SUPPORT. What the stages answer is shaped as the rules of their operations say (R91, R103, R129, R152, R154). -/

namespace Sys2Proof.Machine

theorem glyphChar_mem_displayAlphabet (g : Glyph) : glyphChar g ∈ displayAlphabet := by cases g <;> decide

theorem markChars_mem_displayAlphabet (k : Fin 4) : markChars[k] ∈ displayAlphabet := by revert k; decide

/-- A cell renders as its marker and its glyph at most (R126). -/
theorem cellText_length_le (m : Char) (c : Cell) : (cellText m c).length ≤ 2 := by
  obtain ⟨marker, code, glyph⟩ := c
  cases marker <;> cases glyph <;> simp [cellText]

theorem mem_cellText {m x : Char} {c : Cell} (hm : m ∈ displayAlphabet) (hx : x ∈ cellText m c) : x ∈ displayAlphabet := by
  obtain hx | hx := List.mem_append.1 hx
  · split at hx
    · exact List.mem_singleton.1 hx ▸ hm
    · cases hx
  · obtain ⟨g, -, rfl⟩ := Option.map_eq_some_iff.1 (Option.mem_toList.1 hx)
    exact glyphChar_mem_displayAlphabet g

/-- The four cell texts one after another (R127). -/
def cellTexts (cells : Vector Cell 4) : Text :=
  cellText markChars[0] cells[0] ++ cellText markChars[1] cells[1] ++ cellText markChars[2] cells[2] ++
    cellText markChars[3] cells[3]

theorem displayOf_eq (cells : Vector Cell 4) :
    displayOf cells = if cellTexts cells = [] then ['0'] else cellTexts cells := rfl

theorem cellTexts_length_le (cells : Vector Cell 4) : (cellTexts cells).length ≤ 8 := by
  have h0 := cellText_length_le markChars[0] cells[0]
  have h1 := cellText_length_le markChars[1] cells[1]
  have h2 := cellText_length_le markChars[2] cells[2]
  have h3 := cellText_length_le markChars[3] cells[3]
  simp only [cellTexts, List.length_append]
  omega

theorem mem_cellTexts {cells : Vector Cell 4} {x : Char} (h : x ∈ cellTexts cells) : x ∈ displayAlphabet := by
  simp only [cellTexts, List.mem_append] at h
  obtain ((h | h) | h) | h := h
  · exact mem_cellText (markChars_mem_displayAlphabet 0) h
  · exact mem_cellText (markChars_mem_displayAlphabet 1) h
  · exact mem_cellText (markChars_mem_displayAlphabet 2) h
  · exact mem_cellText (markChars_mem_displayAlphabet 3) h

/-- A display rendered from its cells is as R129 says: 1 to 8 characters of the alphabet. -/
theorem digits_ok_of_displayOf (cells : Vector Cell 4) : Digits.Ok ⟨cells, displayOf cells⟩ := by
  unfold Digits.Ok
  dsimp only
  rw [displayOf_eq]
  split
  · exact ⟨by decide, by decide, by simp [displayAlphabet], rfl⟩
  next h => exact ⟨List.length_pos_of_ne_nil h, cellTexts_length_le cells, fun _ => mem_cellTexts, rfl⟩

theorem digdec_result_ok {p : Params} {S : Bits} {d : Digits} (h : digdec p S = .ok d) : d.Ok := by
  rcases Nat.lt_or_ge S.length 60 with hN | hN
  · rw [digdec_error p hN] at h; cases h
  · rw [digdec_ok p hN] at h; cases h
    exact digits_ok_of_displayOf _

/-- Where ANNDEC answers, it answers the scan's positions and their labels (R153). -/
theorem anndec_eq_ok {p : Params} {S : Bits} {v : DeviceVariant} {a : Annotations} (h : anndec p S v = .ok a) :
    a = ⟨(scan S (flavourOf v)).1, (scan S (flavourOf v)).2,
      labels p (flavourOf v) (scan S (flavourOf v)).1, labels p (flavourOf v) (scan S (flavourOf v)).2⟩ := by
  rcases Nat.lt_or_ge S.length (annNeed (flavourOf v)) with hN | hN
  · rw [anndec_error p v hN] at h; cases h
  · rw [anndec_ok p v hN] at h; exact (Except.ok.inj h).symm

theorem anndec_result_ok {p : Params} {S : Bits} {v : DeviceVariant} {a : Annotations} (h : anndec p S v = .ok a) :
    a.Ok := by
  obtain rfl := anndec_eq_ok h
  have hupos := scan_upos_sublist S (flavourOf v)
  refine ⟨(descending_labelWindow_pairwise _).sublist hupos, scan_nodup S _, fun _ => mem_scan_fpos_bounds,
    fun _ hp => mem_labelWindow_bounds (hupos.subset hp), fun l hl => ?_⟩
  obtain hl | hl := List.mem_append.1 hl <;> exact ne_nil_of_mem_labels hl

/-- Where DecodeFrame answers, both decoders did, on the same stream (R172). -/
theorem decodeFrame_eq_ok {p : Params} {raw : List Byte} {v : DeviceVariant} {r : Reading}
    (h : decodeFrame p raw v = .ok r) :
    ∃ plain, deobf raw = .ok plain ∧ digdec p (bitrev plain) = .ok r.digits ∧ anndec p (bitrev plain) v = .ok r.notes ∧
      r.variant = v := by
  unfold decodeFrame at h
  split at h
  · cases h
  next plain hplain =>
    refine ⟨plain, hplain, ?_⟩
    dsimp only at h
    split at h
    · cases h
    · split at h
      next d a hd ha => cases h; exact ⟨hd, ha, rfl⟩
      · cases h
      · cases h

theorem decodeFrame_result_ok {p : Params} {raw : List Byte} {v : DeviceVariant} {r : Reading}
    (h : decodeFrame p raw v = .ok r) : r.digits.Ok ∧ r.notes.Ok := by
  obtain ⟨plain, -, hd, ha, -⟩ := decodeFrame_eq_ok h
  exact ⟨digdec_result_ok hd, anndec_result_ok ha⟩

end Sys2Proof.Machine
end

section
/-! SUPPORT. What stands at the result port after an instruction is shaped as the rules say; the invariant at reset and
under a step, and the frame of an instruction. -/

namespace Sys2Proof.Machine

/-- Whatever stands at the result port is shaped as the rules of its operation say: the half of `Inv` that speaks of
the reply. -/
def State.ReplyOk (s : State) : Prop := ∀ r, s.reply = some r → r.Ok

theorem State.ReplyOk.answer (s : State) {r : Result} (h : r.Ok) : (s.answer r).ReplyOk :=
  fun _ hy => Option.some.inj hy ▸ h

theorem State.ReplyOk.raise (s : State) (e : HardError) : (s.raise e).ReplyOk :=
  fun _ hy => Option.some.inj hy ▸ trivial

theorem State.ReplyOk.refuse (s : State) (w : RefusalReason) : (s.refuse w).ReplyOk :=
  fun _ hy => Option.some.inj hy ▸ trivial

/-- A stage's answer is well-shaped at the port if the stage only gives well-shaped results. -/
theorem State.ReplyOk.finish (s : State) {α : Type} {x : Except HardError α} {f : α → Result}
    (h : ∀ a, x = .ok a → (f a).Ok) : (s.finish (x.map f)).ReplyOk := by
  cases x with
  | ok a => exact .answer s (h a rfl)
  | error e => exact .raise s e

theorem State.ReplyOk.withinCap {s k : State} (n cap : Nat) (h : k.ReplyOk) : (s.withinCap n cap k).ReplyOk := by
  obtain ⟨-, e⟩ | ⟨-, e⟩ := s.withinCap_cases n cap k <;> rw [e]
  · exact .refuse s _
  · exact h

theorem State.ReplyOk.lookVariant (s : State) (c : BitVec 3) : (s.lookVariant c).ReplyOk := by
  unfold State.lookVariant
  split
  · exact .answer s trivial
  · exact .refuse s _

theorem State.ReplyOk.endWith (s : State) (c reason : BitVec 2) : (s.endWith c reason).ReplyOk := by
  unfold State.endWith
  split
  · exact .answer s trivial
  · exact .raise s _
  · exact .raise s _
  · exact .refuse s _

/-- Every instruction leaves a well-shaped reply, whatever stood at the port before. The last case is the look-ups of
selector patterns and segment codes, whose results have no shape to keep. -/
theorem exec_replyOk (i : Instr) {s t : State} (h : exec i s = .next t) : t.ReplyOk := by
  cases i with
  | deobf raw => cases h; exact .withinCap _ _ (.finish s fun _ hb => (deobf_length hb).1.le.trans (deobf_length hb).2)
  | bitrev p => cases h; exact .withinCap _ _ (.answer s (Dvd.intro _ (bitrev_length p).symm))
  | vdet S => cases h; exact .withinCap _ _ (.finish s fun _ _ => trivial)
  | digdec S => cases h; exact .withinCap _ _ (.finish s fun _ hd => digdec_result_ok hd)
  | anndec S c =>
    cases h
    refine .withinCap _ _ ?_
    split
    · exact .refuse s _
    · exact .finish s fun _ ha => anndec_result_ok ha
  | decode raw =>
    cases h
    refine .withinCap _ _ ?_
    split
    · exact .finish s fun _ hr => decodeFrame_result_ok hr
    · exact .refuse s _
  | vsetup raw =>
    cases h
    refine .withinCap _ _ ?_
    split
    · exact .answer _ trivial
    · exact .raise s _
  | reservedOp a => cases h; exact .refuse s _
  | varcodeUnknown | varcodeVariant1 | varcodeVariant2 | varcodeVariant3 | varcodeVariant4 | varcodeReserved101
  | varcodeReserved110 | varcodeReserved111 => cases h; exact .lookVariant s _
  | outOk | outOutOfRange | outMalformed | outRefused r => cases h; exact .endWith s _ _
  | _ => cases h; exact .answer s trivial

/-- No instruction writes the parameters (10_state.md R26). -/
theorem exec_params {i : Instr} {s t : State} (h : exec i s = .next t) : t.params = s.params := by
  obtain ⟨y, e⟩ | ⟨_, v, _, _, _, e⟩ := exec_cases i s <;> cases e.symm.trans h <;> rfl

/-- Settles O42: a step leaves the parameters alone, and clears the reply or has an instruction write it. -/
theorem everyStepKeepsTheInvariant : Obligations.EveryStepKeepsTheInvariant := by
  intro s t ⟨hlaw, _⟩ h
  obtain ⟨-, e⟩ | ⟨rest, -, e⟩ | ⟨r, rest, i, -, -, e⟩ | ⟨r, rest, _, -, -, e⟩ := step_cases s
  · cases e.symm.trans h; exact ⟨hlaw, nofun⟩
  · cases e.symm.trans h; exact ⟨hlaw, nofun⟩
  · rw [e] at h
    exact ⟨exec_params h ▸ hlaw, exec_replyOk i h⟩
  · cases e.symm.trans h

/-- Settles O41: the reset block's parameters are lawful and its result port is empty. -/
theorem invariantHoldsAtReset : Obligations.InvariantHoldsAtReset := ⟨Config.params_lawful, nofun⟩

/-- Settles O39: the register by the reset state, the parameters by their form. -/
theorem resetHoldsNoVariant : Obligations.ResetHoldsNoVariant := ⟨rfl, rfl, rfl, Config.params_lawful⟩

/-- Settles O45: by what an instruction can do. -/
theorem everyInstructionKeepsItsFrame : Obligations.EveryInstructionKeepsItsFrame := by
  intro i s
  obtain ⟨y, e⟩ | ⟨raw, v, rfl, -, -, e⟩ := exec_cases i s
  · exact ⟨_, e, rfl, rfl, rfl, ⟨y, rfl⟩, fun _ => ⟨rfl, rfl⟩⟩
  · exact ⟨_, e, rfl, rfl, rfl, ⟨_, rfl⟩, fun h => absurd rfl (h raw)⟩

end Sys2Proof.Machine
end

section
/-! SUPPORT. Which labels the scan can name (10_state.md R29 to R32; 44_annotation_decoder.md R152). -/

namespace Sys2Proof.Machine

/-- Looking a list up at consecutive positions from `a` gives the list. -/
theorem map_getD_range' {α : Type} (l : List α) (a : Nat) (d : α) :
    (List.range' a l.length).map (fun p => l.getD (p - a) d) = l := by
  refine List.ext_getElem (by simp) fun i _ hi => ?_
  simp [hi]

/-- A window whose positions look a table up in order gives the table, descending. -/
theorem map_descending_getD {table : List Text} {w : Nat × Nat} {g : Nat → Text} (hlen : table.length = w.2 - w.1)
    (hg : ∀ p ∈ descending w, g p = table.getD (p - w.1) []) : (descending w).map g = table.reverse := by
  have hg' : ∀ p ∈ List.range' w.1 (w.2 - w.1), g p = table.getD (p - w.1) [] :=
    fun p hp => hg p (List.mem_reverse.2 hp)
  rw [descending, List.map_reverse, List.map_congr_left hg', ← hlen, map_getD_range']

/-- The function window's positions carry the 3-symbol table (R29, R152). -/
theorem map_label_fn3Window (t : Params) (f : Flavour) :
    (descending literals.fn3).map (label t f) = (fn3Table t f).toList.reverse :=
  map_descending_getD Vector.length_toList fun _ hp => if_pos (mem_descending.1 hp).2

theorem labelTable_length (t : Params) (f : Flavour) :
    (labelTable t f).length = (labelWindow f).2 - (labelWindow f).1 := by
  cases f <;> exact Vector.length_toList

/-- The label window's positions carry the label table (R30, R31, R152). -/
theorem map_label_labelWindow (t : Params) (f : Flavour) :
    (descending (labelWindow f)).map (label t f) = (labelTable t f).reverse := by
  refine map_descending_getD (labelTable_length t f) fun p hp => if_neg ?_
  obtain ⟨hlo, -⟩ := mem_labelWindow_bounds hp
  exact Nat.not_lt.2 (Nat.le_trans (by decide) hlo)

/-- R32's requirement for a flavour: the non-empty labels of its two tables are pairwise distinct. -/
def LabelsDistinct (t : Params) (f : Flavour) : Prop :=
  (((fn3Table t f).toList ++ labelTable t f).filter (fun l => !l.isEmpty)).Nodup

/-- The labels of all visited positions are the non-empty entries of the flavour's two tables. -/
theorem labels_visited_perm (t : Params) (f : Flavour) :
    (labels t f (visited f)).Perm (((fn3Table t f).toList ++ labelTable t f).filter (fun l => !l.isEmpty)) := by
  rw [labels, visited, List.map_append, map_label_fn3Window, map_label_labelWindow]
  exact ((List.reverse_perm _).append (List.reverse_perm _)).filter _

theorem labels_append (t : Params) (f : Flavour) (ps qs : List Nat) :
    labels t f (ps ++ qs) = labels t f ps ++ labels t f qs := by
  simp [labels]

theorem labels_scan_nodup {t : Params} {f : Flavour} (S : Bits) (h : LabelsDistinct t f) :
    (labels t f (scan S f).1 ++ labels t f (scan S f).2).Nodup := by
  have hall : (labels t f (visited f)).Nodup := (labels_visited_perm t f).nodup_iff.2 h
  have hset : (labels t f ((visited f).filter (sym S))).Nodup :=
    hall.sublist ((List.filter_sublist.map _).filter _)
  rw [← labels_append]
  exact (((scan_perm S f).map _).filter _).nodup_iff.2 hset

/-- Code 010 selects flavour B and every other code that is not reserved flavour A (30_encoding.md R75, R141). -/
theorem flavourOf_variantOfCode {c : BitVec 3} {v : DeviceVariant} (h : variantOfCode c = some v) :
    flavourOf v = if c = 0b010#3 then .B else .A := by
  have all : ∀ c : BitVec 3, ∀ v ∈ variantOfCode c, flavourOf v = if c = 0b010#3 then .B else .A := by decide
  exact all c v h

/-- Where an ANNDEC answers annotations, the code names a variant and the stage gave them. -/
theorem exec_anndec_annotations {s t : State} {S : Bits} {c : BitVec 3} {a : Annotations}
    (h : exec (.anndec S c) s = .next t) (ha : t.reply = some (.ok (.annotations a))) :
    ∃ v, variantOfCode c = some v ∧ anndec s.params S v = .ok a := by
  rcases Nat.lt_or_ge (8 * s.params.cap) S.length with hN | hN
  · simp only [exec, execAnndec, s.withinCap_of_lt _ hN] at h
    cases h; cases ha
  · cases hv : variantOfCode c with
    | none =>
      simp only [exec, execAnndec, s.withinCap_of_le _ hN, hv] at h
      cases h; cases ha
    | some v =>
      rw [exec_anndec hN hv] at h
      refine ⟨v, rfl, ?_⟩
      cases hx : anndec s.params S v with
      | ok b => rw [hx] at h; cases h; cases ha; rfl
      | error e => rw [hx] at h; cases h; cases ha

/-- Settles O16: what comes out are labels of distinct visited positions. -/
theorem distinctLabelsComeOutOnce : Obligations.DistinctLabelsComeOutOnce := by
  intro s t S c a hB hA h ha
  obtain ⟨v, hv, hstage⟩ := exec_anndec_annotations h ha
  have hdistinct : LabelsDistinct s.params (flavourOf v) := by
    rw [flavourOf_variantOfCode hv]
    split
    next hc => exact hB hc
    next hc => exact hA hc
  obtain rfl := anndec_eq_ok hstage
  exact labels_scan_nodup S hdistinct

/-- The positions of flavour A's label window whose entry of LBL_A is empty (10_state.md R30). -/
def placeholders (t : Params) : List Nat := (descending (labelWindow .A)).filter (fun p => (label t .A p).isEmpty)

theorem placeholders_length (t : Params) : (placeholders t).length = (t.lblA.toList.filter List.isEmpty).length := by
  calc (placeholders t).length
      = (((descending (labelWindow .A)).map (label t .A)).filter List.isEmpty).length := by
        rw [List.filter_map, List.length_map]; rfl
    _ = (t.lblA.toList.filter List.isEmpty).length := by
        rw [map_label_labelWindow, List.filter_reverse, List.length_reverse]; rfl

/-- Of a list without duplicates, a test true at one member alone keeps that member. -/
theorem filter_eq_singleton {l : List Nat} {p : Nat} {q : Nat → Bool} (hl : l.Nodup) (hp : p ∈ l)
    (hq : ∀ k ∈ l, q k = (k == p)) : l.filter q = [p] := by
  rw [List.filter_congr hq, List.filter_beq, List.count_eq_one_of_mem hl hp, List.replicate_one]

/-- The scan of a stream whose only flag is set at a position of the label window. -/
theorem scan_of_single_flag {S : Bits} {f : Flavour} {p : Nat} (hp : p ∈ descending (labelWindow f))
    (hS : ∀ k ∈ visited f, sym S k = (k == p)) :
    scan S f = if p ∈ funcPositions f then ([p], []) else ([], [p]) := by
  have hfn3 : (descending literals.fn3).filter (sym S) = [] := by
    refine List.filter_eq_nil_iff.2 fun k hk => ?_
    have hk' : k < 28 := (mem_descending.1 hk).2
    have hp' := mem_labelWindow_bounds hp
    rw [hS k (List.mem_append_left _ hk)]
    simp; omega
  have hlabel : (descending (labelWindow f)).filter (sym S) = [p] :=
    filter_eq_singleton (visited_nodup f).of_append_right hp fun k hk => hS k (List.mem_append_right _ hk)
  rw [scan_eq, hfn3, hlabel]
  split <;> simp [*]

/-- Settles O34: the six positions are placeholders of the label table, and the scan finds the set one alone. -/
theorem sixFlagsOfFlavourAHaveNoLabel : Obligations.SixFlagsOfFlavourAHaveNoLabel := by
  intro s ⟨_, _, hsix⟩
  refine ⟨placeholders s.params, placeholders_length s.params ▸ hsix, (visited_nodup .A).of_append_right.filter _,
    fun p hp => ?_⟩
  obtain ⟨hwin, hempty⟩ := List.mem_filter.1 hp
  obtain ⟨hlo, hhi⟩ := mem_labelWindow_bounds hwin
  refine ⟨hlo, hhi, fun S c hc hN hcap hS => ?_⟩
  obtain ⟨v, hv, hA⟩ : ∃ v, variantOfCode c = some v ∧ flavourOf v = .A := by
    obtain rfl | rfl | rfl | rfl := hc <;> exact ⟨_, rfl, rfl⟩
  have hscan : scan S .A = if p ∈ [60, 63, 64, 65, 80] then ([p], []) else ([], [p]) :=
    scan_of_single_flag hwin fun k hk => by
      simp [sym_eq_getElem?, hS k (mem_visited_bounds hk)]
  have hlabels : labels s.params .A [p] = [] := by simp [labels, hempty]
  rw [exec_anndec hcap hv, anndec_ok _ _ (by rw [hA]; exact hN), hA, hscan]
  split
  · rw [hlabels]; rfl
  · rw [hlabels]; rfl

end Sys2Proof.Machine
end

section
/-! SUPPORT. The display of blank digit windows and the rows of the default segment table (10_state.md R27, R28). -/

namespace Sys2Proof.Machine

/-- A digit window without a set symbol is a blank cell where SEG_ROM obeys law 3 (R27). -/
theorem cellAt_of_zero {p : Params} (hblank : p.segRom[0] = none) {S : Bits} {o : Nat}
    (h : ∀ j < 8, sym S (o + j) = false) : cellAt p S o = ⟨false, 0#7, none⟩ := by
  have hwin : ∀ j < 8, sym (window S o 8) j = false := fun j hj => by rw [sym_window hj, h j hj]
  have hcode : segCode (window S o 8) = 0#7 := by
    simp [segCode, literals, hwin, bitsPattern, bitsToNum]
  simp only [cellAt, hcode, hwin 0 (by decide)]
  exact congrArg (Cell.mk false 0#7) hblank

/-- Settles O10: each of the four windows is a blank cell without a marker, so that the fallback of R127 applies. -/
theorem allZeroDigitsDisplayZero : Obligations.AllZeroDigitsDisplayZero := by
  intro s S ⟨_, hblank, _⟩ hN hcap hS
  have hcell : ∀ o, 28 ≤ o → o + 8 ≤ 60 → cellAt s.params S o = ⟨false, 0#7, none⟩ := fun o hlo hhi =>
    cellAt_of_zero hblank fun j hj => by
      simp [sym_eq_getElem?, hS (o + j) (by omega) (by omega)]
  have hcells : mapFour (cellAt s.params S) #v[28, 36, 44, 52] =
      #v[⟨false, 0#7, none⟩, ⟨false, 0#7, none⟩, ⟨false, 0#7, none⟩, ⟨false, 0#7, none⟩] := by
    simp [mapFour, hcell]
  rw [exec_digdec hcap, digdec_ok _ hN, hcells]
  rfl

/-- SEG_ROM_DEFAULT holds the listed entries and is blank elsewhere. -/
theorem segLookup_default {p : Params} (h : p.segRom = Config.SEG_ROM_DEFAULT) (c : SegCode) :
    segLookup p c = Config.segDefaultRows.lookup c := by
  simp [segLookup, h, Config.SEG_ROM_DEFAULT]

theorem lookSegment_default {s : State} (h : s.params.segRom = Config.SEG_ROM_DEFAULT) {c : SegCode} {g : Option Glyph}
    (hg : Config.segDefaultRows.lookup c = g) : s.lookSegment c = { s with reply := some (.ok (.glyph g)) } := by
  rw [State.lookSegment, segLookup_default h, hg]
  rfl

/-- The code of a well-formed SEG_BLANK has no entry in the default table. -/
theorem lookup_of_segBlank_wellFormed {c : SegCode} (h : (Instr.segBlank c).WellFormed) :
    Config.segDefaultRows.lookup c = none := by
  have hc : c ∉ listedSegments := by simpa [Instr.WellFormed, Instr.wf] using h
  refine List.lookup_eq_none_iff.2 fun x hx => ?_
  exact bne_iff_ne.2 fun e => hc (e ▸ List.mem_map_of_mem hx)

/-- Settles O29: every segment row is a look-up of its address, and the default table holds the row's glyph there. -/
theorem segmentRowsOfTheDefaultRomAnswerTheirGlyph : Obligations.SegmentRowsOfTheDefaultRomAnswerTheirGlyph := by
  intro s hrom
  refine ⟨?_, fun c hc => congrArg Host.Outcome.next (lookSegment_default hrom (lookup_of_segBlank_wellFormed hc))⟩
  simp only [List.forall_mem_cons]
  and_intros
  case refine_2 => exact nofun
  all_goals exact congrArg Host.Outcome.next (lookSegment_default hrom rfl)

end Sys2Proof.Machine
end

section
/-! SUPPORT. While VAR_VALID is 0 nothing the block does depends on VAR (10_state.md R36). -/

namespace Sys2Proof.Machine

/-- Two states that differ in VAR at most, and there only while VAR_VALID is 0. -/
def SameButUnsetVar (a b : State) : Prop := ∃ v, b = { a with var := v } ∧ (a.varValid = true → v = a.var)

namespace SameButUnsetVar

variable {a b k l : State}

theorem reply_eq (h : SameButUnsetVar a b) : a.reply = b.reply := by
  obtain ⟨v, rfl, -⟩ := h
  rfl

theorem withReply (h : SameButUnsetVar a b) (y : Option Reply) :
    SameButUnsetVar { a with reply := y } { b with reply := y } := by
  obtain ⟨v, rfl, hv⟩ := h
  exact ⟨v, rfl, hv⟩

theorem withRequests (h : SameButUnsetVar a b) (l : List HostInput) :
    SameButUnsetVar { a with requests := l } { b with requests := l } := by
  obtain ⟨v, rfl, hv⟩ := h
  exact ⟨v, rfl, hv⟩

theorem finish (h : SameButUnsetVar a b) (x : Except HardError Result) : SameButUnsetVar (a.finish x) (b.finish x) := by
  cases x <;> exact h.withReply _

theorem withinCap (h : SameButUnsetVar a b) (n cap : Nat) (hk : SameButUnsetVar k l) :
    SameButUnsetVar (a.withinCap n cap k) (b.withinCap n cap l) := by
  rcases Nat.lt_or_ge cap n with hl | hl
  · rw [a.withinCap_of_lt _ hl, b.withinCap_of_lt _ hl]; exact h.withReply _
  · rwa [a.withinCap_of_le _ hl, b.withinCap_of_le _ hl]

theorem holdVariant (h : SameButUnsetVar a b) (v : DeviceVariant) :
    SameButUnsetVar (a.holdVariant v) (b.holdVariant v) := by
  obtain ⟨w, rfl, -⟩ := h
  exact ⟨v, rfl, fun _ => rfl⟩

theorem applyReset (h : SameButUnsetVar a b) : SameButUnsetVar a.applyReset b.applyReset := by
  obtain ⟨w, rfl, -⟩ := h
  exact ⟨_, rfl, nofun⟩

end SameButUnsetVar

/-- Two outcomes that the host cannot tell apart, now or later: next states that agree but for an unset VAR, or one and
the same stop. -/
inductive SameOutcome : Host.Outcome State Fault Refusal → Host.Outcome State Fault Refusal → Prop
  | next {a b : State} (h : SameButUnsetVar a b) : SameOutcome (.next a) (.next b)
  | fault (f : Fault) : SameOutcome (.fault f) (.fault f)

/-- No instruction observes an unset VAR. -/
theorem exec_sameOutcome (i : Instr) {a b : State} (h : SameButUnsetVar a b) : SameOutcome (exec i a) (exec i b) := by
  have ⟨w, hb, hw⟩ := h
  subst hb
  cases i with
  | deobf raw => exact .next (h.withinCap _ _ (h.finish _))
  | bitrev p => exact .next (h.withinCap _ _ (h.withReply _))
  | vdet S => exact .next (h.withinCap _ _ (h.finish _))
  | digdec S => exact .next (h.withinCap _ _ (h.finish _))
  | anndec S c =>
    refine .next (h.withinCap _ _ ?_)
    cases variantOfCode c
    · exact h.withReply _
    · exact h.finish _
  | decode raw =>
    refine .next (h.withinCap _ _ ?_)
    dsimp only
    split
    next hvalid => obtain rfl := hw hvalid; exact h.finish _
    · exact h.withReply _
  | vsetup raw =>
    refine .next (h.withinCap _ _ ?_)
    cases detect raw with
    | ok v => exact (h.holdVariant v).withReply _
    | error e => exact h.withReply _
  | _ => exact .next (h.withReply _)

theorem step_sameOutcome {a b : State} (h : SameButUnsetVar a b) : SameOutcome (step a) (step b) := by
  have ⟨w, hb, _⟩ := h
  subst hb
  unfold step
  dsimp only
  cases a.requests with
  | nil => exact .next ((h.withRequests []).withReply none)
  | cons x rest =>
    cases x with
    | reset => exact .next (h.withRequests rest).applyReset
    | request r =>
      dsimp only
      cases Sys2Proof.decode r with
      | ok i => exact exec_sameOutcome i (h.withRequests rest)
      | error e => exact .fault _

theorem trace_sameButUnsetVar (n : Nat) {a b : State} (h : SameButUnsetVar a b) : trace n a = trace n b := by
  induction n generalizing a b with
  | zero => rfl
  | succ n ih =>
    have hstep := step_sameOutcome h
    unfold trace
    generalize step a = x at hstep ⊢
    generalize step b = y at hstep ⊢
    cases hstep with
    | next hs => exact congrArg₂ List.cons hs.reply_eq (ih hs)
    | fault f => rfl

/-- Settles O50: blocks that differ in an unset VAR alone stay so, and the host is answered alike. -/
theorem unsetVariantIsNeverObserved : Obligations.UnsetVariantIsNeverObserved := by
  intro s v n hs
  exact (trace_sameButUnsetVar n ⟨v, rfl, fun h => by simp [hs] at h⟩).symm

end Sys2Proof.Machine
end

section
/-! SUPPORT. Reading a stream, and the frame bits that DECODE depends on (20_memory.md R44, R48). -/

namespace Sys2Proof.Machine

theorem window_getElem? {S : Bits} {a n j : Nat} (hj : j < n) : (window S a n)[j]? = S[a + j]? := by
  simp [window, hj]

/-- Settles O5: past the bound MemRead errs, and within it the window is whole. -/
theorem memReadChecksItsBoundAndReadsAscending : Obligations.MemReadChecksItsBoundAndReadsAscending :=
  fun S a n _ => ⟨memRead_error, fun h => ⟨window S a n, memRead_ok h, window_length h, fun _ => window_getElem?⟩⟩

/-- Bit `j` of PlainFrame byte `i` is bit `j` of the raw byte XOR bit `j` of the key byte (40_deobfuscator.md R91). -/
theorem deobf_getLsbD {raw plain : List Byte} (h : deobf raw = .ok plain) (i j : Nat) :
    plain[i]?.map (·.getLsbD j) =
      Option.map₂ xor (raw[i]?.map (·.getLsbD j)) (literals.key[i]?.map (·.getLsbD j)) := by
  rw [deobf_ok (deobf_length h).2] at h
  obtain rfl := Except.ok.inj h
  rw [List.getElem?_zipWith]
  cases raw[i]? <;> cases literals.key[i]? <;> simp

/-- Frames that agree on bit `j` of byte `i` have streams that agree at address `8i + j`. -/
theorem sym_bitrev_deobf_congr {raw other plain plain' : List Byte} (h : deobf raw = .ok plain)
    (h' : deobf other = .ok plain') {i j : Nat} (hj : j < 8)
    (hbit : raw[i]?.map (·.getLsbD j) = other[i]?.map (·.getLsbD j)) :
    sym (bitrev plain) (8 * i + j) = sym (bitrev plain') (8 * i + j) := by
  rw [sym_eq_getElem?, sym_eq_getElem?, bitrev_getElem? _ _ _ hj, bitrev_getElem? _ _ _ hj, deobf_getLsbD h,
    deobf_getLsbD h', hbit]

/-- A cell depends on the 8 symbols of its window alone (43_digit_decoder.md R121). -/
theorem cellAt_congr (p : Params) {S T : Bits} {o : Nat} (h : ∀ j < 8, sym S (o + j) = sym T (o + j)) :
    cellAt p S o = cellAt p T o := by
  have hwin : ∀ j < 8, sym (window S o 8) j = sym (window T o 8) j := fun j hj => by
    rw [sym_window hj, sym_window hj, h j hj]
  have hcode : segCode (window S o 8) = segCode (window T o 8) :=
    congrArg (bitsPattern 7) (List.map_congr_left fun j hj =>
      hwin j ((by decide : ∀ j ∈ literals.perm, j < 8) j hj))
  simp only [cellAt, hcode, hwin 0 (by decide)]

/-- The cells depend on the symbols [28,60) alone (43_digit_decoder.md R129). -/
theorem digitCells_congr (p : Params) {S T : Bits} (h : ∀ k, 28 ≤ k → k < 60 → sym S k = sym T k) :
    mapFour (cellAt p S) #v[28, 36, 44, 52] = mapFour (cellAt p T) #v[28, 36, 44, 52] := by
  have hcell : ∀ o, 28 ≤ o → o + 8 ≤ 60 → cellAt p S o = cellAt p T o := fun o hlo hhi =>
    cellAt_congr p fun j hj => h (o + j) (by omega) (by omega)
  simp [mapFour, hcell]

theorem digdec_congr (p : Params) {S T : Bits} (hlen : S.length = T.length)
    (h : ∀ k, 28 ≤ k → k < 60 → sym S k = sym T k) : digdec p S = digdec p T := by
  rcases Nat.lt_or_ge S.length 60 with hN | hN
  · rw [digdec_error p hN, digdec_error p (hlen ▸ hN)]
  · rw [digdec_ok p hN, digdec_ok p (hlen ▸ hN), digitCells_congr p h]

/-- The scan depends on the symbols it visits alone (44_annotation_decoder.md R147, R151). -/
theorem scan_congr {S T : Bits} {f : Flavour} (h : ∀ k ∈ visited f, sym S k = sym T k) : scan S f = scan T f := by
  rw [scan_eq, scan_eq, List.filter_congr fun k hk => h k (List.mem_append_left _ hk),
    List.filter_congr fun k hk => h k (List.mem_append_right _ hk)]

theorem anndec_congr (p : Params) {S T : Bits} (v : DeviceVariant) (hlen : S.length = T.length)
    (h : ∀ k ∈ visited (flavourOf v), sym S k = sym T k) : anndec p S v = anndec p T v := by
  simp only [anndec, hlen, scan_congr h]

/-- The addresses that DECODE reads in a flavour (20_memory.md R48): the digit windows and the scanned positions. -/
def DecodeReads (f : Flavour) (k : Nat) : Prop := (28 ≤ k ∧ k < 60) ∨ k ∈ visited f

/-- The addresses read in flavour B lie in [25,60) and [64,80), those read in flavour A in [25,88). -/
theorem DecodeReads.bounds {v : DeviceVariant} {k : Nat} (h : DecodeReads (flavourOf v) k) :
    if v = .variant2 then (25 ≤ k ∧ k < 60) ∨ (64 ≤ k ∧ k < 80) else 25 ≤ k ∧ k < 88 := by
  split
  next hv =>
    subst hv
    have hB : (28 ≤ k ∧ k < 60) ∨ (25 ≤ k ∧ k < 28) ∨ (64 ≤ k ∧ k < 80) :=
      Or.imp_right (fun hk => (List.mem_append.1 hk).imp mem_descending.1 mem_descending.1) h
    omega
  next =>
    have hA := Or.imp_right mem_visited_bounds h
    omega

/-- DecodeFrame depends on the length of a frame and on the symbols that its stages read. -/
theorem decodeFrame_congr (p : Params) {raw other : List Byte} (v : DeviceVariant) (hlen : raw.length = other.length)
    (h : ∀ i j : Nat, j < 8 → DecodeReads (flavourOf v) (8 * i + j) →
      raw[i]?.map (·.getLsbD j) = other[i]?.map (·.getLsbD j)) :
    decodeFrame p raw v = decodeFrame p other v := by
  unfold decodeFrame
  rcases Nat.lt_or_ge 20 raw.length with hL | hL
  · rw [deobf_error hL, deobf_error (hlen ▸ hL)]
  · obtain ⟨plain, hplain⟩ : ∃ plain, deobf raw = .ok plain := ⟨_, deobf_ok hL⟩
    obtain ⟨plain', hplain'⟩ : ∃ plain', deobf other = .ok plain' := ⟨_, deobf_ok (hlen ▸ hL)⟩
    have hN : (bitrev plain).length = (bitrev plain').length := by
      rw [bitrev_length, bitrev_length, (deobf_length hplain).1, (deobf_length hplain').1, hlen]
    have hsym : ∀ k, DecodeReads (flavourOf v) k → sym (bitrev plain) k = sym (bitrev plain') k := fun k hk => by
      rw [← Nat.div_add_mod k 8] at hk ⊢
      exact sym_bitrev_deobf_congr hplain hplain' (Nat.mod_lt _ (by decide)) (h _ _ (Nat.mod_lt _ (by decide)) hk)
    simp only [hplain, hplain', hN, digdec_congr p hN fun k hlo hhi => hsym k (.inl ⟨hlo, hhi⟩),
      anndec_congr p v hN fun k hk => hsym k (.inr hk)]

/-- Settles O23: the statement's addresses cover those that DecodeFrame reads. -/
theorem decodeIgnoresTheBitsNoStageReads : Obligations.DecodeIgnoresTheBitsNoStageReads := by
  intro s raw other hlen hbits
  have hframe : decodeFrame s.params raw s.var = decodeFrame s.params other s.var :=
    decodeFrame_congr s.params s.var hlen fun i j hj hread => hbits i j hj hread.bounds
  simp only [exec, execDecode, hlen, hframe]

end Sys2Proof.Machine
end

section
/-! SUPPORT. A step of a request, and the answers to requests that do not write the session register (20_memory.md R49). -/

namespace Sys2Proof.Machine

/-- Settles O35: the request stands first in the queue and decodes. -/
theorem stepRunsTheDecodedRequest : Obligations.StepRunsTheDecodedRequest := by
  intro s r rest i hreq hdec
  simp only [step, hreq, hdec]

/-- What the encoder gives for a well-formed instruction decodes to it. -/
theorem decode_encode {i : Instr} (h : i.WellFormed) : decode (encode i) = .ok i := by
  cases i with
  | selUnknown w => exact Laws.EncodesBack.selUnknown w h
  | segBlank c => exact Laws.EncodesBack.segBlank c h
  | _ => rfl

/-- A well-formed instruction that the host asks next is executed. -/
theorem step_ofInstr {s : State} {i : Instr} {rest : List HostInput} (h : i.WellFormed)
    (hreq : s.requests = .ofInstr i :: rest) : step s = exec i { s with requests := rest } :=
  stepRunsTheDecodedRequest s (encode i) rest i hreq (decode_encode h)

theorem onlyReplies_of_ne_vsetup {i : Instr} (h : ∀ raw, i ≠ .vsetup raw) (s : State) : OnlyReplies (exec i s) s := by
  obtain hreplies | ⟨raw, _, hi, _⟩ := exec_cases i s
  · exact hreplies
  · exact absurd hi (h raw)

/-- An answer depends on the session register and the parameters alone. -/
theorem replyOf_exec_congr (i : Instr) {s t : State} (h : SameBlock s t) : replyOf (exec i s) = replyOf (exec i t) := by
  obtain ⟨v, b, y, hs, ht⟩ := exec_sameEffect i h
  rw [hs, ht]
  rfl

/-- A step of a request that is no VSETUP takes it from the queue and writes its answer, and nothing else. -/
theorem step_ofInstr_of_ne_vsetup {s : State} {i : Instr} {rest : List HostInput} (h : i.WellFormed)
    (hne : ∀ raw, i ≠ .vsetup raw) (hreq : s.requests = .ofInstr i :: rest) :
    step s = .next { s with requests := rest, reply := replyOf (exec i s) } := by
  obtain ⟨y, hexec⟩ := onlyReplies_of_ne_vsetup hne { s with requests := rest }
  have hreply : replyOf (exec i s) = some y := calc
    replyOf (exec i s) = replyOf (exec i { s with requests := rest }) := replyOf_exec_congr i ⟨rfl, rfl, rfl⟩
    _ = some y := congrArg replyOf hexec
  rw [step_ofInstr h hreq, hexec, hreply]

/-- Settles O51, by induction on the requests: each one leaves the session register and the parameters as they were. -/
theorem answersDoNotDependOnEarlierRequests : Obligations.AnswersDoNotDependOnEarlierRequests := by
  intro s is rest his hreq
  induction is generalizing s with
  | nil => rfl
  | cons i is ih =>
    obtain ⟨⟨hwf, hne⟩, his⟩ := List.forall_mem_cons.1 his
    rw [List.length_cons, trace, step_ofInstr_of_ne_vsetup hwf hne hreq]
    refine congrArg (replyOf (exec i s) :: ·) ((ih _ his rfl).trans ?_)
    exact List.map_congr_left fun j _ => replyOf_exec_congr j ⟨rfl, rfl, rfl⟩

end Sys2Proof.Machine
end

section
/-! SUPPORT. The decoder inverts the encoder, for every request and every operand (30_encoding.md R70, R75, R76;
42_variant_detector.md R111; 10_state.md R28), and words written out from the spec's tables. -/

namespace Sys2Proof.Machine

/-- The request is what the encoder gives for a well-formed instruction. -/
def EncodedBy (r : Request) (i : Instr) : Prop := i.WellFormed ∧ encode i = r

/-- A selector pattern with a row of its own decodes to that row, and any other to SEL_UNKNOWN (R111). -/
theorem encodedBy_decodeSel (w : BitVec 8) : EncodedBy ⟨.sel w, .none⟩ (decodeSel w) := by
  have listed : ∀ w ∈ listedSelectors, (decodeSel w).WellFormed ∧ encode (decodeSel w) = ⟨.sel w, .none⟩ := by decide
  by_cases hw : w ∈ listedSelectors
  · exact listed w hw
  · have hwf : (Instr.selUnknown w).WellFormed := by simpa [Instr.WellFormed, Instr.wf] using hw
    have hrow : decodeSel w = .selUnknown w := Except.ok.inj (decode_encode hwf)
    exact hrow ▸ ⟨hwf, rfl⟩

/-- A segment code with a row of its own decodes to that row, and any other to SEG_BLANK (R28). -/
theorem encodedBy_decodeSeg (c : SegCode) : EncodedBy ⟨.seg c, .none⟩ (decodeSeg c) := by
  have listed : ∀ c ∈ listedSegments, (decodeSeg c).WellFormed ∧ encode (decodeSeg c) = ⟨.seg c, .none⟩ := by decide
  by_cases hc : c ∈ listedSegments
  · exact listed c hc
  · have hwf : (Instr.segBlank c).WellFormed := by simpa [Instr.WellFormed, Instr.wf] using hc
    have hrow : decodeSeg c = .segBlank c := Except.ok.inj (decode_encode hwf)
    exact hrow ▸ ⟨hwf, rfl⟩

/-- Each of the eight DeviceVariant codes has a row (R75, R80). -/
theorem encodedBy_decodeVar (c : BitVec 3) : EncodedBy ⟨.var c, .none⟩ (decodeVar c) := by
  have all : ∀ c : BitVec 3, (decodeVar c).WellFormed ∧ encode (decodeVar c) = ⟨.var c, .none⟩ := by decide
  exact all c

theorem eq_ofNat_of_toNat_eq {n k : Nat} {c : BitVec n} (h : c.toNat = k) : c = BitVec.ofNat n k := by
  rw [← h, BitVec.ofNat_toNat, BitVec.setWidth_eq]

/-- An operation is accepted with its own kind of operand alone, and keeps it (R70, R71). -/
theorem encodedBy_of_decodeOp {c : BitVec 3} {a : Operand} {i : Instr} (h : decodeOp c a = .ok i) :
    EncodedBy ⟨.op c, a⟩ i := by
  unfold decodeOp at h
  split at h
  case h_9 => cases h
  all_goals
    next hc =>
      cases h
      obtain rfl := eq_ofNat_of_toNat_eq hc
      exact ⟨rfl, rfl⟩

/-- An outcome code is accepted alone, and code 11 with its reason (R76). -/
theorem encodedBy_of_decodeOut {c : BitVec 2} {a : Operand} {i : Instr} (h : decodeOut c a = .ok i) :
    EncodedBy ⟨.out c, a⟩ i := by
  unfold decodeOut at h
  split at h
  case h_5 => cases h
  all_goals
    next hc =>
      cases h
      obtain rfl := eq_ofNat_of_toNat_eq hc
      exact ⟨rfl, rfl⟩

/-- A row that takes no operand is accepted with none. -/
theorem encodedBy_of_bare {c : Code} {a : Operand} {i j : Instr} (hi : EncodedBy ⟨c, .none⟩ i)
    (h : bare c a i = .ok j) : EncodedBy ⟨c, a⟩ j := by
  cases a <;> cases h
  exact hi

/-- An accepted request is the encoding of the instruction it decodes to, which is well-formed. -/
theorem encodedBy_of_decode {r : Request} {i : Instr} (h : decode r = .ok i) : EncodedBy r i := by
  obtain ⟨code, a⟩ := r
  cases code with
  | op c => exact encodedBy_of_decodeOp h
  | sel w => exact encodedBy_of_bare (encodedBy_decodeSel w) h
  | var c => exact encodedBy_of_bare (encodedBy_decodeVar c) h
  | seg c => exact encodedBy_of_bare (encodedBy_decodeSeg c) h
  | out c => exact encodedBy_of_decodeOut h

/-- Settles O43: one direction by the code's format, the other by encoding and decoding each instruction. -/
theorem decodeInvertsEncode : Obligations.DecodeInvertsEncode := by
  intro r i
  constructor
  · exact encodedBy_of_decode
  · rintro ⟨hwf, rfl⟩
    exact decode_encode hwf

/-- Settles O44: by running the decoder on each word. -/
theorem writtenWordsDecode : Obligations.WrittenWordsDecode :=
  ⟨rfl, rfl, rfl, rfl, rfl, rfl, rfl, rfl⟩

end Sys2Proof.Machine
end

section
/-! SUPPORT. Refusals at the port (30_encoding.md R71, R76, R80; 60_exceptions.md R194, R195) and the numeric codes
(R75 to R77). -/

namespace Sys2Proof.Machine

/-- ANNDEC with a code that names no variant, on a stream the port can present (44_annotation_decoder.md R153). -/
theorem exec_anndec_reserved {s : State} {S : Bits} {c : BitVec 3} (h : S.length ≤ 8 * s.params.cap)
    (hc : variantOfCode c = none) : exec (.anndec S c) s = .next (s.refuse .reservedVariantCode) := by
  simp only [exec, execAnndec, hc, s.withinCap_of_le _ h]

/-- Settles O14: the three codes name no variant. -/
theorem reservedVariantCodeIsRefused : Obligations.ReservedVariantCodeIsRefused := by
  intro s S c hc hN
  have hnone : variantOfCode c = none := by obtain rfl | rfl | rfl := hc <;> rfl
  exact exec_anndec_reserved hN hnone

/-- Settles O24: the refusal is all that op = 111 does. -/
theorem reservedOperationIsRefused : Obligations.ReservedOperationIsRefused := fun _ _ => rfl

/-- An operation that checks its operand first is refused where the operand is over the capacity (R71, R195). -/
theorem next_withinCap_of_lt {s : State} {n cap : Nat} (h : cap < n) (k : State) :
    (.next (s.withinCap n cap k) : Host.Outcome State Fault Refusal) = .next (s.refuse .overCapacity) :=
  congrArg Host.Outcome.next (s.withinCap_of_lt k h)

/-- Settles O25: in every operation the capacity check comes before its other checks. -/
theorem operandOverCapacityIsRefused : Obligations.OperandOverCapacityIsRefused := by
  intro s
  refine ⟨fun b hb => ?_, fun S c hS => ?_⟩ <;> simp only [List.forall_mem_cons]
  · have hrefuse := next_withinCap_of_lt (s := s) hb
    exact ⟨hrefuse _, hrefuse _, hrefuse _, hrefuse _, nofun⟩
  · have hrefuse := next_withinCap_of_lt (s := s) hS
    exact ⟨hrefuse _, hrefuse _, hrefuse _, nofun⟩

/-- Settles O27: each row is one reading of its code. -/
theorem variantCodeRowsAnswerTheirVariant : Obligations.VariantCodeRowsAnswerTheirVariant :=
  fun _ => ⟨rfl, rfl, rfl, rfl, rfl, rfl, rfl, rfl⟩

/-- Each 2-bit reason code names the reason it stands for (R76). -/
theorem reasonCode_reasonOfCode (r : BitVec 2) : reasonCode (reasonOfCode r) = r := by
  have all : ∀ r : BitVec 2, reasonCode (reasonOfCode r) = r := by decide
  exact all r

/-- A refusal at the port: code 11, the reason beside it, no result field (R76). -/
theorem present_refused (w : RefusalReason) : present (.refused w) = ⟨0b11#2, some (reasonCode w), .none⟩ := rfl

/-- Settles O30: the rows by the outcome code they carry, and the reason read back from its code. -/
theorem outcomeRowsShowTheirCode : Obligations.OutcomeRowsShowTheirCode := by
  intro s
  refine ⟨rfl, rfl, rfl, rfl, rfl, rfl, rfl, rfl, rfl, rfl, fun r => ?_⟩
  rw [present_refused, reasonCode_reasonOfCode]

/-- The 5-bit codes in use are 0 to 17 and 31 (R77). -/
theorem glyphCode_lt_or_eq (g : Option Glyph) : (glyphCode g).toNat < 18 ∨ (glyphCode g).toNat = 31 := by
  cases g with
  | none => exact .inr rfl
  | some g => exact .inl (by cases g <;> decide)

/-- Settles O32: the two tables entry by entry. -/
theorem glyphsAndVariantsHaveTheirCharactersAndCodes : Obligations.GlyphsAndVariantsHaveTheirCharactersAndCodes :=
  ⟨by decide, rfl, glyphCode_lt_or_eq, by decide, rfl, rfl, rfl⟩

end Sys2Proof.Machine
end

section
/-! SUPPORT. What an operation answers on an operand the port can present, where its stage completes (30_encoding.md
R70, R78). -/

namespace Sys2Proof.Machine

variable {s : State}

theorem exec_deobf_ok {raw plain : List Byte} (hcap : raw.length ≤ s.params.cap) (h : deobf raw = .ok plain) :
    exec (.deobf raw) s = .next (s.answer (.bytes plain)) := by
  rw [exec_deobf hcap, h]; rfl

theorem exec_vdet_ok {S : Bits} {v : DeviceVariant} (hcap : S.length ≤ 8 * s.params.cap) (h : vdet S = .ok v) :
    exec (.vdet S) s = .next (s.answer (.variant v)) := by
  rw [exec_vdet hcap, h]; rfl

theorem exec_digdec_ok {S : Bits} {d : Digits} (hcap : S.length ≤ 8 * s.params.cap)
    (h : digdec s.params S = .ok d) : exec (.digdec S) s = .next (s.answer (.digits d)) := by
  rw [exec_digdec hcap, h]; rfl

theorem exec_anndec_ok {S : Bits} {c : BitVec 3} {v : DeviceVariant} {a : Annotations}
    (hcap : S.length ≤ 8 * s.params.cap) (hc : variantOfCode c = some v) (h : anndec s.params S v = .ok a) :
    exec (.anndec S c) s = .next (s.answer (.annotations a)) := by
  rw [exec_anndec hcap hc, h]; rfl

theorem exec_decode_ok {raw : List Byte} {r : Reading} (hcap : raw.length ≤ s.params.cap) (hheld : s.varValid = true)
    (h : decodeFrame s.params raw s.var = .ok r) : exec (.decode raw) s = .next (s.answer (.reading r)) := by
  rw [exec_decode hcap hheld, h]; rfl

/-- DEOBF answers where the frame is no longer than the key (40_deobfuscator.md R91). -/
theorem deobf_answers {raw : List Byte} (h : raw.length ≤ 20) : ∃ plain, deobf raw = .ok plain := ⟨_, deobf_ok h⟩

/-- Both flavours' label windows end beyond the last digit window (43_digit_decoder.md R121). -/
theorem digNeed_le_annNeed (f : Flavour) : digNeed ≤ annNeed f := by cases f <;> decide

theorem annNeed_le_88 (f : Flavour) : annNeed f ≤ 88 := by cases f <;> decide

/-- DecodeFrame answers where the flavour's windows fit (45_frame_decode.md R172, R175). -/
theorem decodeFrame_answers (p : Params) {raw : List Byte} {v : DeviceVariant} (hL : raw.length ≤ 20)
    (hN : annNeed (flavourOf v) ≤ 8 * raw.length) : ∃ r, decodeFrame p raw v = .ok r := by
  obtain ⟨plain, hplain⟩ := deobf_answers hL
  have hS : annNeed (flavourOf v) ≤ (bitrev plain).length := by rwa [bitrev_length, (deobf_length hplain).1]
  have h60 : 60 ≤ (bitrev plain).length := (digNeed_le_annNeed _).trans hS
  simp only [decodeFrame, hplain, if_neg (Nat.not_lt.mpr hS), digdec_ok p h60, anndec_ok p v hS]
  exact ⟨_, rfl⟩

/-- The bound of a flavour in whole bytes: 10 under Variant2 and 11 under any other variant (R175). -/
theorem annNeed_flavourOf_le {v : DeviceVariant} {n : Nat} (h : (if v = .variant2 then 10 else 11) ≤ n) :
    annNeed (flavourOf v) ≤ 8 * n := by
  have hneed : annNeed (flavourOf v) = 8 * if v = .variant2 then 10 else 11 := by cases v <;> rfl
  omega

end Sys2Proof.Machine
end

section
/-! SUPPORT. What the stages read of a frame, byte by byte: the digit cells in PlainFrame coordinates and the selector
byte (20_memory.md R42, R63, R64). -/

namespace Sys2Proof.Machine

theorem bitsToNum_append_singleton (b : Bits) (x : Bool) : bitsToNum (b ++ [x]) = 2 * bitsToNum b + x.toNat := by
  simp [bitsToNum]

/-- The number of a string holds its symbols as bits, the last one least significant. -/
theorem bitsToNum_testBit (b : Bits) (j : Nat) : (bitsToNum b).testBit j = b.reverse.getD j false := by
  induction b using List.reverseRecOn generalizing j with
  | nil => simp [bitsToNum]
  | append_singleton b x ih =>
    rw [bitsToNum_append_singleton, List.reverse_concat]
    cases j with
    | zero => cases x <;> simp [Nat.testBit_zero]
    | succ j =>
      have hhalf : (2 * bitsToNum b + x.toNat) / 2 = bitsToNum b := by have := x.toNat_le; omega
      rw [Nat.testBit_succ, hhalf, ih, List.getD_cons_succ]

/-- A string is read back from its pattern. -/
theorem patternBits_bitsPattern (b : Bits) : patternBits (bitsPattern b.length b) = b := by
  refine List.ext_getElem (by simp [patternBits]) fun j _ hj => ?_
  have hlast : b.length - 1 - j < b.length := by omega
  have hback : b.length - 1 - (b.length - 1 - j) = j := by omega
  have hbit : (BitVec.ofNat b.length (bitsToNum b)).getLsbD (b.length - 1 - j) = b[j] := by
    rw [BitVec.getLsbD_ofNat, bitsToNum_testBit]
    simp [List.getD_eq_getElem?_getD, hlast, hback]
  simpa [patternBits, bitsPattern, BitVec.getMsbD, hj, hlast] using hbit

/-- The code of a digit window, its 7 characters gathered by the permutation (43_digit_decoder.md R123). -/
theorem patternBits_segCode (w : Bits) :
    patternBits (segCode w) = [sym w 3, sym w 2, sym w 7, sym w 6, sym w 1, sym w 5, sym w 4] :=
  patternBits_bitsPattern (literals.perm.map (sym w))

/-- Settles O9: the first four symbols of window `k` are the high half of one byte, the other four the low half of the
next. -/
theorem digitCellsInByteCoordinates : Obligations.DigitCellsInByteCoordinates := by
  intro s p hL hcap
  have hN : 60 ≤ (bitrev p).length := by rw [bitrev_length]; omega
  have hcap : (bitrev p).length ≤ 8 * s.params.cap := by rw [bitrev_length]; omega
  refine ⟨_, exec_digdec_ok hcap (digdec_ok _ hN), fun k lo hi hlo hhi => ?_⟩
  have hstart : (#v[28, 36, 44, 52] : Vector Nat 4)[k] = 8 * (k.val + 3) + 4 := by fin_cases k <;> rfl
  have hlow : ∀ j < 4, sym (window (bitrev p) (8 * (k.val + 3) + 4) 8) j = lo.getLsbD (4 + j) := fun j hj => by
    rw [sym_window (by omega), Nat.add_assoc, sym_bitrev _ _ _ (by omega)]
    simp [List.getD_eq_getElem?_getD, hlo]
  have hhigh : ∀ j < 4, sym (window (bitrev p) (8 * (k.val + 3) + 4) 8) (4 + j) = hi.getLsbD j := fun j hj => by
    have haddr : 8 * (k.val + 3) + 4 + (4 + j) = 8 * (k.val + 4) + j := by omega
    rw [sym_window (by omega), haddr, sym_bitrev _ _ _ (by omega)]
    simp [List.getD_eq_getElem?_getD, hhi]
  rw [mapFour_getElem, hstart]
  refine ⟨hlow 0 (by decide), ?_⟩
  rw [cellAt, patternBits_segCode, hlow 1 (by decide), hlow 2 (by decide), hlow 3 (by decide), hhigh 0 (by decide),
    hhigh 1 (by decide), hhigh 2 (by decide), hhigh 3 (by decide)]

/-- A byte's 8 symbols are the window at its place in the stream (20_memory.md R42). -/
theorem window_bitrev {p : List Byte} {i : Nat} {b : Byte} (h : p[i]? = some b) :
    window (bitrev p) (8 * i) 8 = rev8 b := by
  induction p generalizing i with
  | nil => cases h
  | cons c p ih =>
    cases i with
    | zero =>
      obtain rfl : c = b := by simpa using h
      simp [window, bitrev_cons, List.take_left']
    | succ i =>
      rw [bitrev_cons, ← ih (i := i) (by simpa using h)]
      simp [window, Nat.mul_succ, List.drop_append, List.drop_eq_nil_of_le]

/-- Byte `i` of a PlainFrame is byte `i` of the raw frame XOR byte `i` of the key (40_deobfuscator.md R91). -/
theorem deobf_getElem? {raw plain : List Byte} (h : deobf raw = .ok plain) {i : Nat} {b k : Byte}
    (hb : raw[i]? = some b) (hk : literals.key[i]? = some k) : plain[i]? = some (b ^^^ k) := by
  rw [deobf_ok (deobf_length h).2] at h
  obtain rfl := Except.ok.inj h
  simp [List.getElem?_zipWith, hb, hk]

/-- The variant that raw byte 2 of a frame names (20_memory.md R64). -/
def variantOfByteTwo (b : Byte) : DeviceVariant :=
  if b = 0x70#8 then .variant1 else if b = 0x71#8 then .variant2 else if b = 0x72#8 then .variant3
  else if b = 0x77#8 then .variant4 else .unknown

/-- The byte that the key leaves of raw byte 2 selects the variant that byte names (R64, R111). -/
theorem vsel_rev8_xor_key (b : Byte) : vsel (bitsPattern 8 (rev8 (b ^^^ 0x73#8))) = variantOfByteTwo b := by
  have all : ∀ b : Byte, vsel (bitsPattern 8 (rev8 (b ^^^ 0x73#8))) = variantOfByteTwo b := by decide
  exact all b

/-- VSETUP detects the variant that raw byte 2 names (R64, 45_frame_decode.md R176). -/
theorem detect_ok {raw : List Byte} {b : Byte} (hL : raw.length ≤ 20) (hb : raw[2]? = some b) :
    detect raw = .ok (variantOfByteTwo b) := by
  obtain ⟨plain, hplain⟩ := deobf_answers hL
  obtain ⟨h3, -⟩ := List.getElem?_eq_some_iff.1 hb
  have hN : 24 ≤ (bitrev plain).length := by rw [bitrev_length, (deobf_length hplain).1]; omega
  have hsel : window (bitrev plain) 16 8 = rev8 (b ^^^ 0x73#8) := window_bitrev (deobf_getElem? hplain hb rfl)
  simp only [detect, hplain, vdet_ok hN, hsel, vsel_rev8_xor_key]

theorem detect_long {raw : List Byte} (h : 20 < raw.length) : detect raw = .error .outOfRange := by
  simp only [detect, deobf_error h]

theorem detect_short {raw : List Byte} (h : raw.length < 3) : detect raw = .error .malformedFrame := by
  obtain ⟨plain, hplain⟩ := deobf_answers (raw := raw) (by omega)
  have hN : (bitrev plain).length < 24 := by rw [bitrev_length, (deobf_length hplain).1]; omega
  simp only [detect, hplain, vdet_error hN]

/-- Settles O20: by what VSETUP detects in a frame that is too long, too short, or neither. -/
theorem vsetupHoldsTheVariantOfByteTwo : Obligations.VsetupHoldsTheVariantOfByteTwo := by
  intro s raw _ hcap
  exact ⟨fun h => exec_vsetup_error hcap (detect_long h), fun h => exec_vsetup_error hcap (detect_short h),
    fun h b hb => exec_vsetup_ok hcap (detect_ok h hb)⟩

end Sys2Proof.Machine
end

section
/-! SUPPORT. What the host sees at the result port of each operation (30_encoding.md R75 to R78). -/

namespace Sys2Proof.Machine

/-- The port's vectors have a bit for every position that a scan visits, in the scan's order (R152). -/
theorem visited_sublist_recoverOrder (f : Flavour) : (visited f).Sublist recoverOrder := by cases f <;> decide

theorem recoverOrder_nodup : recoverOrder.Nodup := visited_nodup .A

/-- In the vector of a list, a position's bit says whether the list holds it (R78). -/
theorem posVec_has {ps : List Nat} {p : Nat} (h : p ∈ recoverOrder) : (posVec ps).has p = decide (p ∈ ps) := by
  obtain ⟨hlo, hhi⟩ | ⟨hlo, hhi⟩ := mem_visited_bounds (f := .A) h
  · have hp : 25 + (p - 25) = p := by omega
    have hfn3 : p < 60 := by omega
    have hbit : p - 25 < 3 := by omega
    simp [PosVec.has, posVec, hp, hfn3, hbit]
  · have hp : 60 + (p - 60) = p := by omega
    have hlbl : ¬ p < 60 := by omega
    have hbit : p - 60 < 28 := by omega
    simp [PosVec.has, posVec, hp, hlbl, hbit]

/-- Filtering a list without duplicates by membership in a sublist gives the sublist. -/
theorem filter_mem_of_sublist {l ps : List Nat} (h : ps.Sublist l) (hl : l.Nodup) :
    l.filter (fun p => decide (p ∈ ps)) = ps := by
  have hsub : ps.Sublist (l.filter fun p => decide (p ∈ ps)) := by
    have hfilter := h.filter fun p => decide (p ∈ ps)
    rwa [List.filter_eq_self.2 fun p hp => decide_eq_true hp] at hfilter
  have hlen : (l.filter fun p => decide (p ∈ ps)).length ≤ ps.length :=
    (List.subperm_of_subset (hl.filter _) fun p hp => by simpa using (List.mem_filter.1 hp).2).length_le
  exact (hsub.eq_of_length_le hlen).symm

/-- A list in scan order is recovered from its vector (R78). -/
theorem posVec_positions {ps : List Nat} (h : ps.Sublist recoverOrder) : (posVec ps).positions = ps := by
  rw [PosVec.positions, List.filter_congr fun _ => posVec_has, filter_mem_of_sublist h recoverOrder_nodup]

theorem scan_fpos_sublist (S : Bits) (f : Flavour) : (scan S f).1.Sublist (visited f) := by
  rw [scan_eq]
  exact List.filter_sublist.append (List.filter_sublist.trans List.filter_sublist)

/-- Both lists of an ANNDEC result are recovered from their vectors (R78). -/
theorem anndec_positions_recovered {p : Params} {S : Bits} {v : DeviceVariant} {a : Annotations}
    (h : anndec p S v = .ok a) :
    (posVec a.fpos).positions = a.fpos ∧ (posVec a.upos).positions = a.upos := by
  obtain rfl := anndec_eq_ok h
  have hscan := visited_sublist_recoverOrder (flavourOf v)
  exact ⟨posVec_positions ((scan_fpos_sublist S _).trans hscan),
    posVec_positions (((scan_upos_sublist S _).trans (List.sublist_append_right _ _)).trans hscan)⟩

/-- Outcome Ok at the port: code 00, no reason, and the fields of the result (R76, R78). -/
theorem State.port_of_reply {t : State} {r : Result} (h : t.reply = some (.ok r)) :
    t.port = some ⟨0b00#2, none, portFields r⟩ := by
  rw [State.port, h]; rfl

/-- Settles O31: both lists stand in scan order. -/
theorem positionListsAreRecoveredFromThePort : Obligations.PositionListsAreRecoveredFromThePort := by
  intro s t S c a h ha
  obtain ⟨v, -, hstage⟩ := exec_anndec_annotations h ha
  exact ⟨_, _, State.port_of_reply ha, anndec_positions_recovered hstage⟩

/-- Each DeviceVariant's code reads back as it (R75). -/
theorem variantOfCode_variantCode (v : DeviceVariant) : variantOfCode (variantCode v) = some v := by cases v <;> rfl

/-- Settles O33: each operation answers the result of its stage, and the port shows that result's fields. -/
theorem portPresentsTheResultOfEachOperation : Obligations.PortPresentsTheResultOfEachOperation := by
  unfold Obligations.PortPresentsTheResultOfEachOperation
  intro glyphNumber variantNumber seen s hcap
  have hglyph : glyphNumber = glyphCode := by
    funext g
    rcases g with _ | g
    · rfl
    · cases g <;> rfl
  have hvariant : variantNumber = variantCode := by funext v; cases v <;> rfl
  have hseen : seen = portCell := by simp only [seen, hglyph]; rfl
  rw [hvariant, hseen]
  have hwithin : ∀ {raw : List Byte}, raw.length ≤ 20 → raw.length ≤ s.params.cap := by omega
  refine ⟨fun raw hL => ?_, fun p hL => ?_, fun S hN hS => ?_, fun raw h3 hL => ?_, fun S hN hS => ?_,
    fun S v hN hS => ?_, fun raw hheld hmin hL => ?_⟩
  · obtain ⟨plain, hplain⟩ := deobf_answers hL
    rw [← (deobf_length hplain).1]
    exact ⟨_, _, exec_deobf_ok (hwithin hL) hplain, rfl, rfl⟩
  · rw [← bitrev_length]
    exact ⟨_, _, exec_bitrev hL, rfl, rfl⟩
  · exact ⟨_, _, exec_vdet_ok hS (vdet_ok hN), rfl, rfl⟩
  · have hb : raw[2]? = some raw[2] := List.getElem?_eq_getElem h3
    exact ⟨_, exec_vsetup_ok (hwithin hL) (detect_ok hL hb), rfl, rfl, rfl⟩
  · exact ⟨_, _, exec_digdec_ok hS (digdec_ok _ hN), rfl, rfl⟩
  · have hstage := anndec_ok s.params v ((annNeed_le_88 _).trans hN)
    exact ⟨_, _, _, _, exec_anndec_ok hS (variantOfCode_variantCode v) hstage, rfl, rfl,
      anndec_positions_recovered hstage⟩
  · obtain ⟨r, hr⟩ := decodeFrame_answers s.params hL (annNeed_flavourOf_le hmin)
    obtain ⟨_, -, -, hnotes, hvar⟩ := decodeFrame_eq_ok hr
    rw [← hvar]
    exact ⟨_, _, _, _, exec_decode_ok (hwithin hL) hheld hr, rfl, rfl, anndec_positions_recovered hnotes⟩

end Sys2Proof.Machine
end

section
/-! SUPPORT. DEOBF as an operation: what it errs on, and that the key undoes itself (40_deobfuscator.md R91, R94). -/

namespace Sys2Proof.Machine

theorem exec_deobf_error {s : State} {raw : List Byte} {e : HardError} (hcap : raw.length ≤ s.params.cap)
    (h : deobf raw = .error e) : exec (.deobf raw) s = .next (s.raise e) := by
  rw [exec_deobf hcap, h]; rfl

/-- Settles O1: the frame is either no longer than the key or longer than it. -/
theorem deobfXorsEachByteWithItsKeyByte : Obligations.DeobfXorsEachByteWithItsKeyByte := by
  intro s raw _ hcap
  refine ⟨fun hL => ?_, fun hL => exec_deobf_error hcap (deobf_error hL)⟩
  obtain ⟨plain, hplain⟩ := deobf_answers hL
  exact ⟨plain, exec_deobf_ok hcap hplain, (deobf_length hplain).1, fun _ _ _ => deobf_getElem? hplain⟩

/-- DEOBF of a PlainFrame is the raw frame: the same key byte twice cancels (40_deobfuscator.md R94). -/
theorem deobf_involutive {raw plain : List Byte} (h : deobf raw = .ok plain) : deobf plain = .ok raw := by
  obtain ⟨hlen, hL⟩ := deobf_length h
  obtain ⟨again, hagain⟩ := deobf_answers (hlen.trans_le hL)
  have hsame : again = raw := by
    refine List.ext_getElem ((deobf_length hagain).1.trans hlen) fun i hi hr => ?_
    have hi20 : i < literals.key.length := hr.trans_le hL
    have hk := List.getElem?_eq_getElem hi20
    have htwice := deobf_getElem? hagain (deobf_getElem? h (List.getElem?_eq_getElem hr) hk) hk
    simpa [hi, BitVec.xor_assoc] using htwice
  rw [hagain, hsame]

/-- Settles O2: the PlainFrame is as short as the raw frame, so the port presents it too. -/
theorem deobfTwiceGivesTheOperandBack : Obligations.DeobfTwiceGivesTheOperandBack := by
  intro s raw hcap hL
  obtain ⟨plain, hplain⟩ := deobf_answers hL
  have hlen : plain.length = raw.length := (deobf_length hplain).1
  exact ⟨plain, exec_deobf_ok (by omega) hplain, exec_deobf_ok (by omega) (deobf_involutive hplain)⟩

end Sys2Proof.Machine
end

section
/-! SUPPORT. BITREV as an operation: the symbols of its stream, and that it loses nothing (41_bit_normalizer.md R102, R105). -/

namespace Sys2Proof.Machine

/-- Settles O3: the stream of `bitrev`, with its length and its symbols. -/
theorem bitrevEmitsEachByteLeastSignificantFirst : Obligations.BitrevEmitsEachByteLeastSignificantFirst := by
  intro s p hcap
  exact ⟨bitrev p, exec_bitrev hcap, bitrev_length p, fun i j b hb hj => by rw [bitrev_getElem? p i j hj, hb]; rfl⟩

/-- The length and every bit of every byte are read back from the stream (41_bit_normalizer.md R105). -/
theorem bitrev_injective : Function.Injective bitrev := by
  intro p q h
  have hlen : p.length = q.length := by
    have hbits := congrArg List.length h
    simp only [bitrev_length] at hbits
    omega
  refine List.ext_getElem hlen fun i hp hq => BitVec.eq_of_getLsbD_eq fun j hj => ?_
  have hsym : (bitrev p)[8 * i + j]? = (bitrev q)[8 * i + j]? := by rw [h]
  simpa [bitrev_getElem? _ i j hj, hp, hq] using hsym

/-- The reply determines the result that was answered. -/
theorem State.answer_injective (s : State) : Function.Injective s.answer := by
  intro r r' h
  simpa using congrArg State.reply h

/-- Settles O4: both operations answer their streams, and equal streams come of equal operands. -/
theorem bitrevLosesNothing : Obligations.BitrevLosesNothing := by
  intro s p q hp hq h
  rw [exec_bitrev hp, exec_bitrev hq] at h
  have hresult : Result.stream (bitrev p) = .stream (bitrev q) := s.answer_injective (Host.Outcome.next.inj h)
  exact bitrev_injective (Result.stream.inj hresult)

end Sys2Proof.Machine
end

section
/-! SUPPORT. The variant detector: the patterns listed and the window read (42_variant_detector.md R110 to R113). -/

namespace Sys2Proof.Machine

/-- One row of a table is one test. -/
theorem lookup_cons_getD {α β : Type} [DecidableEq α] (a k : α) (b d : β) (l : List (α × β)) :
    (((k, b) :: l).lookup a).getD d = if a = k then b else (l.lookup a).getD d := by
  split
  next h => simp [h]
  next h => simp [List.lookup_cons, beq_eq_false_iff_ne.2 h]

/-- The four listed patterns, and Unknown for any other (R111). -/
theorem vsel_eq (w : BitVec 8) :
    vsel w = if w = 0b11000000#8 then .variant1 else if w = 0b01000000#8 then .variant2
      else if w = 0b10000000#8 then .variant3 else if w = 0b00100000#8 then .variant4 else .unknown := by
  simp only [vsel, literals, lookup_cons_getD, List.lookup_nil, Option.getD_none]

/-- Settles O26: each row is one look-up of its pattern. -/
theorem selectorRowsAnswerTheirVariant : Obligations.SelectorRowsAnswerTheirVariant := by
  intro s
  refine ⟨rfl, rfl, rfl, rfl, fun w h1 h2 h3 h4 => ?_⟩
  have hunlisted : vsel w = .unknown := by rw [vsel_eq, if_neg h1, if_neg h2, if_neg h3, if_neg h4]
  exact congrArg (fun v => Host.Outcome.next (s.answer (.variant v))) hunlisted

theorem patternBits_injective {n : Nat} : Function.Injective (patternBits (n := n)) := by
  intro p q h
  refine BitVec.eq_of_getMsbD_eq fun i hi => ?_
  simpa [patternBits, hi] using congrArg (·[i]?) h

/-- A string writes a pattern exactly when it is the pattern's string. -/
theorem bitsPattern_eq_iff {n : Nat} {b : Bits} (h : b.length = n) (p : BitVec n) :
    bitsPattern n b = p ↔ b = patternBits p := by
  subst h
  rw [← patternBits_injective.eq_iff, patternBits_bitsPattern]

/-- What VSEL answers, by the symbols of the window in address order (R110, R111). -/
theorem vsel_bitsPattern {w : Bits} (h : w.length = 8) :
    vsel (bitsPattern 8 w) =
      if w = [true, true, false, false, false, false, false, false] then .variant1
      else if w = [false, true, false, false, false, false, false, false] then .variant2
      else if w = [true, false, false, false, false, false, false, false] then .variant3
      else if w = [false, false, true, false, false, false, false, false] then .variant4
      else .unknown := by
  simp only [vsel_eq, bitsPattern_eq_iff h]
  rfl

theorem exec_vdet_error {s : State} {S : Bits} {e : HardError} (hcap : S.length ≤ 8 * s.params.cap)
    (h : vdet S = .error e) : exec (.vdet S) s = .next (s.raise e) := by
  rw [exec_vdet hcap, h]; rfl

/-- Settles O6: the bound of R112, and the listed patterns on the window's symbols. -/
theorem vdetClassifiesTheSelectorWindow : Obligations.VdetClassifiesTheSelectorWindow := by
  intro s S hcap
  refine ⟨fun hN => exec_vdet_error hcap (vdet_error hN), fun hN => ?_⟩
  rw [exec_vdet_ok hcap (vdet_ok hN), vsel_bitsPattern (window_length hN)]
  rfl

/-- A window depends on the symbols at its addresses alone. -/
theorem window_congr {S T : Bits} {a n : Nat} (h : ∀ k, a ≤ k → k < a + n → S[k]? = T[k]?) :
    window S a n = window T a n := by
  refine List.ext_getElem? fun j => ?_
  rcases Nat.lt_or_ge j n with hj | hj
  · rw [window_getElem? hj, window_getElem? hj, h (a + j) (by omega) (by omega)]
  · simp [window, hj]

/-- Settles O7: a stream is read in the window [16,24) alone, and of a frame's bytes that window is byte 2. -/
theorem detectionReadsOnlyTheSelector : Obligations.DetectionReadsOnlyTheSelector := by
  refine ⟨fun s S T hScap hTcap hS hT hagree => ?_, fun s raw other hcap hraw hL hother hL' hbyte => ?_⟩
  · rw [exec_vdet_ok hScap (vdet_ok hS), exec_vdet_ok hTcap (vdet_ok hT), window_congr hagree]
  · have hb : raw[2]? = some raw[2] := List.getElem?_eq_getElem hraw
    rw [exec_vsetup_ok (by omega) (detect_ok hL hb), exec_vsetup_ok (by omega) (detect_ok hL' (hbyte ▸ hb))]

end Sys2Proof.Machine
end

section
/-! SUPPORT. DIGDEC as an operation and the look-ups of its SEG_ROM: the four cells, the display, and the addresses read
(43_digit_decoder.md R121 to R129). -/

namespace Sys2Proof.Machine

/-- A code of 7 bits always addresses an entry of SEG_ROM (43_digit_decoder.md R124). -/
theorem some_segLookup (p : Params) (c : SegCode) : some (segLookup p c) = p.segRom[c.toNat]? :=
  (Vector.getElem?_eq_getElem c.isLt).symm

/-- A symbol of a window that lies within the stream is the stream's, at its address (R121). -/
theorem some_sym_window {S : Bits} {a n j : Nat} (h : a + n ≤ S.length) (hj : j < n) :
    some (sym (window S a n) j) = S[a + j]? := by
  have haddr : a + j < S.length := by omega
  rw [sym_window hj, sym_eq_getElem?, List.getElem?_eq_getElem haddr, Option.getD_some]

/-- The code of a window's cell, its symbols gathered in the order of R123. -/
theorem patternBits_cellAt_code (p : Params) {S : Bits} {o : Nat} (h : o + 8 ≤ S.length) :
    (patternBits (cellAt p S o).code).map some =
      [S[o + 3]?, S[o + 2]?, S[o + 7]?, S[o + 6]?, S[o + 1]?, S[o + 5]?, S[o + 4]?] := by
  simp [cellAt, patternBits_segCode, some_sym_window h]

theorem exec_digdec_error {s : State} {S : Bits} {e : HardError} (hcap : S.length ≤ 8 * s.params.cap)
    (h : digdec s.params S = .error e) : exec (.digdec S) s = .next (s.raise e) := by
  rw [exec_digdec hcap, h]; rfl

/-- Settles O8: cell `k` reads the window at `28 + 8k`, and the characters written out are those of `glyphChar`. -/
theorem digdecDecodesTheFourWindows : Obligations.DigdecDecodesTheFourWindows := by
  intro s S hcap
  refine ⟨fun hN => exec_digdec_error hcap (digdec_error _ hN), fun hN =>
    ⟨_, exec_digdec_ok hcap (digdec_ok _ hN), fun k => ?_, ?_⟩⟩
  · have hstart : (#v[28, 36, 44, 52] : Vector Nat 4)[k] = 28 + 8 * k.val := by fin_cases k <;> rfl
    have hwin : 28 + 8 * k.val + 8 ≤ S.length := by omega
    rw [mapFour_getElem, hstart]
    exact ⟨some_sym_window hwin (by decide), patternBits_cellAt_code _ hwin, some_segLookup _ _⟩
  · intro shown text t
    have hshown : ∀ g, shown g = (g.map glyphChar).toList := by
      rintro (_ | g)
      · rfl
      · cases g <;> rfl
    have htext : text = cellText := by funext mark c; simp only [text, hshown, cellText]
    simp only [t, htext]
    exact displayOf_eq _

/-- Settles O11: equal symbols at [28,60) make equal cells, and the display is made of the cells. -/
theorem digdecReadsOnlyTheDigitWindows : Obligations.DigdecReadsOnlyTheDigitWindows := by
  intro s S T hS hScap hT hTcap hagree
  have hcells := digitCells_congr s.params (S := S) (T := T) fun k hlo hhi => by
    rw [sym_eq_getElem?, sym_eq_getElem?, hagree k hlo hhi]
  rw [exec_digdec_ok hScap (digdec_ok _ hS), exec_digdec_ok hTcap (digdec_ok _ hT), hcells]

/-- Settles O28: every segment row is one look-up of its address. -/
theorem segmentRowsReadTheSegmentRom : Obligations.SegmentRowsReadTheSegmentRom := by
  intro s
  have hrow : ∀ {i : Instr} {c : SegCode}, exec i s = .next (s.lookSegment c) →
      ∃ g, s.params.segRom[c.toNat]? = some g ∧ exec i s = .next { s with reply := some (.ok (.glyph g)) } :=
    fun h => ⟨_, (some_segLookup _ _).symm, h⟩
  refine ⟨?_, fun _ => hrow rfl⟩
  simp only [List.forall_mem_cons]
  and_intros
  case refine_2 => exact nofun
  all_goals exact hrow rfl

end Sys2Proof.Machine
end

section
/-! SUPPORT. ANNDEC as an operation: the positions and labels of each flavour written out, and the order and number of
the positions (44_annotation_decoder.md R143 to R154). -/

namespace Sys2Proof.Machine

theorem sym_eq_beq (S : Bits) : sym S = fun k => S[k]? == some true := by
  funext k
  rw [sym_eq_getElem?]
  rcases S[k]? with _ | x
  · rfl
  · cases x <;> rfl

theorem descending_fn3Window : descending literals.fn3 = [27, 26, 25] := rfl

theorem descending_labelWindow_A : descending (labelWindow .A) = (List.range 28).map (fun k => 87 - k) := rfl

theorem descending_labelWindow_B : descending (labelWindow .B) = (List.range 16).map (fun k => 79 - k) := rfl

/-- The scan, each position tested once for being set and of its list's class (R144, R147, R151). -/
theorem scan_eq_setPositions (S : Bits) (f : Flavour) :
    scan S f =
      ([27, 26, 25].filter (fun p => S[p]? == some true) ++
        (descending (labelWindow f)).filter (fun p => S[p]? == some true && (funcPositions f).contains p),
       (descending (labelWindow f)).filter (fun p => S[p]? == some true && !(funcPositions f).contains p)) := by
  simp only [scan_eq, List.filter_filter, sym_eq_beq, descending_fn3Window, List.contains_eq_mem, Bool.and_comm]

theorem labels_eq_filter_ne_nil (t : Params) (f : Flavour) (ps : List Nat) :
    labels t f ps = (ps.map (label t f)).filter (· ≠ []) :=
  List.filter_congr fun l _ => by cases l <;> rfl

theorem exec_anndec_error {s : State} {S : Bits} {c : BitVec 3} {v : DeviceVariant} {e : HardError}
    (hcap : S.length ≤ 8 * s.params.cap) (hc : variantOfCode c = some v) (h : anndec s.params S v = .error e) :
    exec (.anndec S c) s = .next (s.raise e) := by
  rw [exec_anndec hcap hc, h]; rfl

/-- The codes 000, 001, 011 and 100 name variants of flavour A (30_encoding.md R75, R141). -/
theorem exists_variantOfCode_flavour_A {c : BitVec 3} (hc : c = 0b000#3 ∨ c = 0b001#3 ∨ c = 0b011#3 ∨ c = 0b100#3) :
    ∃ v, variantOfCode c = some v ∧ flavourOf v = .A := by
  obtain rfl | rfl | rfl | rfl := hc <;> exact ⟨_, rfl, rfl⟩

/-- Settles O12: the bound of flavour A, and the scan of its windows with the labels of its tables. -/
theorem anndecScansFlavourA : Obligations.AnndecScansFlavourA := by
  intro s S c hc hcap
  obtain ⟨v, hv, hA⟩ := exists_variantOfCode_flavour_A hc
  have hneed : annNeed (flavourOf v) = 88 := by rw [hA]; rfl
  refine ⟨fun hN => exec_anndec_error hcap hv (anndec_error _ v (hneed ▸ hN)), fun hN => ?_⟩
  rw [exec_anndec_ok hcap hv (anndec_ok _ v (hneed ▸ hN)), hA, scan_eq_setPositions, descending_labelWindow_A,
    labels_eq_filter_ne_nil, labels_eq_filter_ne_nil]
  rfl

/-- Settles O13: the bound of flavour B, and the scan of its windows with the labels of its tables. -/
theorem anndecScansFlavourB : Obligations.AnndecScansFlavourB := by
  intro s S hcap
  have hv : variantOfCode 0b010#3 = some .variant2 := rfl
  refine ⟨fun hN => exec_anndec_error hcap hv (anndec_error _ _ hN), fun hN => ?_⟩
  rw [exec_anndec_ok hcap hv (anndec_ok _ _ hN), flavourOf, scan_eq_setPositions, descending_labelWindow_B,
    labels_eq_filter_ne_nil, labels_eq_filter_ne_nil]
  rfl

/-- `fpos` is the function window's set positions, descending, then the label window's of class function, descending. -/
theorem scan_fpos_parts (S : Bits) (f : Flavour) :
    ∃ front back : List Nat, (scan S f).1 = front ++ back ∧ front.Pairwise (· > ·) ∧ back.Pairwise (· > ·) ∧
      (∀ p ∈ front, p < 28) ∧ (∀ p ∈ back, 60 ≤ p) := by
  refine ⟨_, _, congrArg Prod.fst (scan_eq S f), .filter _ (by decide),
    .filter _ (.filter _ (descending_labelWindow_pairwise f)), fun p hp => ?_, fun p hp => ?_⟩
  · exact (mem_descending.1 (List.mem_of_mem_filter hp)).2
  · exact (mem_labelWindow_bounds (List.mem_of_mem_filter (List.mem_of_mem_filter hp))).1

/-- At most the 3 positions of the function window and the label window's of class function come into `fpos`. -/
theorem scan_fpos_length_le (S : Bits) (f : Flavour) : (scan S f).1.length ≤ 3 + (funcPositions f).length := by
  have hclass : ((descending (labelWindow f)).filter (fun p => decide (p ∈ funcPositions f))).length =
      (funcPositions f).length := by cases f <;> decide
  rw [scan_eq, List.length_append, ← hclass]
  exact Nat.add_le_add (List.length_filter_le _ _) (List.filter_sublist.filter _).length_le

/-- At most the label window's positions of class unit come into `upos`. -/
theorem scan_upos_length_le (S : Bits) (f : Flavour) :
    (scan S f).2.length ≤ (labelWindow f).2 - (labelWindow f).1 - (funcPositions f).length := by
  have hclass : ((descending (labelWindow f)).filter (fun p => !decide (p ∈ funcPositions f))).length =
      (labelWindow f).2 - (labelWindow f).1 - (funcPositions f).length := by cases f <;> decide
  rw [scan_eq, ← hclass]
  exact (List.filter_sublist.filter _).length_le

/-- Settles O15: the positions are the scan's, and the code selects the flavour that bounds their number. -/
theorem annotationPositionsAreOrderedAndDistinct : Obligations.AnnotationPositionsAreOrderedAndDistinct := by
  intro s t S c a h ha
  obtain ⟨v, hv, hstage⟩ := exec_anndec_annotations h ha
  obtain ⟨hupos, hnodup, -⟩ := anndec_result_ok hstage
  obtain rfl := anndec_eq_ok hstage
  refine ⟨hupos, scan_fpos_parts S _, hnodup, fun hc => ?_, fun hc => ?_⟩
  · rw [flavourOf_variantOfCode hv, if_neg hc]
    exact ⟨scan_fpos_length_le S .A, scan_upos_length_le S .A⟩
  · rw [flavourOf_variantOfCode hv, if_pos hc]
    exact ⟨scan_fpos_length_le S .B, scan_upos_length_le S .B⟩

end Sys2Proof.Machine
end

section
/-! SUPPORT. What DECODE takes of its variant: the flavour, and the variant field (44_annotation_decoder.md R141,
45_frame_decode.md R173). -/

namespace Sys2Proof.Machine

theorem flavourOf_eq_A {v : DeviceVariant} (h : v ≠ .variant2) : flavourOf v = .A := by
  cases v with
  | variant2 => exact absurd rfl h
  | _ => rfl

/-- ANNDEC depends on its variant by the flavour alone (R141). -/
theorem anndec_eq_of_flavour_eq (p : Params) (S : Bits) {v w : DeviceVariant} (h : flavourOf v = flavourOf w) :
    anndec p S v = anndec p S w := by
  simp only [anndec, h]

theorem annNeed_le_of_anndec_ok {p : Params} {S : Bits} {v : DeviceVariant} {a : Annotations}
    (h : anndec p S v = .ok a) : annNeed (flavourOf v) ≤ S.length :=
  Nat.not_lt.1 fun hN => nomatch (anndec_error p v hN).symm.trans h

/-- DecodeFrame answers what its stages do (R172). -/
theorem decodeFrame_of_stages {p : Params} {raw plain : List Byte} {v : DeviceVariant} {d : Digits} {a : Annotations}
    (hplain : deobf raw = .ok plain) (hd : digdec p (bitrev plain) = .ok d) (ha : anndec p (bitrev plain) v = .ok a) :
    decodeFrame p raw v = .ok ⟨d, a, v⟩ := by
  simp only [decodeFrame, hplain, hd, ha, if_neg (Nat.not_lt.2 (annNeed_le_of_anndec_ok ha))]

/-- Variants of one flavour decode a frame alike but for the variant field (R141, R173). -/
theorem decodeFrame_of_flavour_eq {p : Params} {raw : List Byte} {v w : DeviceVariant} {r : Reading}
    (hf : flavourOf v = flavourOf w) (h : decodeFrame p raw v = .ok r) :
    decodeFrame p raw w = .ok { r with variant := w } := by
  obtain ⟨plain, hplain, hd, ha, -⟩ := decodeFrame_eq_ok h
  exact decodeFrame_of_stages hplain hd (anndec_eq_of_flavour_eq p _ hf ▸ ha)

/-- Where a DECODE answers a reading, the frame was within capacity, a variant was held, and DecodeFrame gave the
reading (R174). -/
theorem exec_decode_reading {s t : State} {raw : List Byte} {r : Reading} (h : exec (.decode raw) s = .next t)
    (hr : t.reply = some (.ok (.reading r))) :
    raw.length ≤ s.params.cap ∧ s.varValid = true ∧ decodeFrame s.params raw s.var = .ok r := by
  rcases Nat.lt_or_ge s.params.cap raw.length with hL | hL
  · simp only [exec, execDecode, s.withinCap_of_lt _ hL] at h
    cases h; cases hr
  · cases hheld : s.varValid with
    | false =>
      rw [exec_decode_unset hL hheld] at h
      cases h; cases hr
    | true =>
      rw [exec_decode hL hheld] at h
      refine ⟨hL, rfl, ?_⟩
      cases hx : decodeFrame s.params raw s.var with
      | ok q => rw [hx] at h; cases h; cases hr; rfl
      | error e => rw [hx] at h; cases h; cases hr

/-- Settles O22: both variants are of flavour A. -/
theorem flavourAVariantsDecodeAlike : Obligations.FlavourAVariantsDecodeAlike := by
  intro s raw v w r hv hw h
  obtain ⟨hL, hheld, hframe⟩ := exec_decode_reading h rfl
  obtain ⟨_, -, -, -, hvariant⟩ := decodeFrame_eq_ok hframe
  have hf : flavourOf v = flavourOf w := (flavourOf_eq_A hv).trans (flavourOf_eq_A hw).symm
  exact ⟨hvariant, exec_decode_ok hL hheld (decodeFrame_of_flavour_eq hf hframe)⟩

end Sys2Proof.Machine
end

section
/-! SUPPORT. DECODE as an operation: the errors of DecodeFrame by the frame's length, and the stages it runs
(45_frame_decode.md R172 to R175). -/

namespace Sys2Proof.Machine

theorem exec_decode_error {s : State} {raw : List Byte} {e : HardError} (hcap : raw.length ≤ s.params.cap)
    (hheld : s.varValid = true) (h : decodeFrame s.params raw s.var = .error e) :
    exec (.decode raw) s = .next (s.raise e) := by
  rw [exec_decode hcap hheld, h]; rfl

/-- The bound of a variant's flavour: the symbols of 10 bytes under Variant2, of 11 under any other (R175). -/
theorem annNeed_flavourOf (v : DeviceVariant) : annNeed (flavourOf v) = 8 * if v = .variant2 then 10 else 11 := by
  cases v <;> rfl

theorem decodeFrame_long (p : Params) {raw : List Byte} (v : DeviceVariant) (h : 20 < raw.length) :
    decodeFrame p raw v = .error .outOfRange := by
  simp only [decodeFrame, deobf_error h]

/-- A frame too short for the flavour's windows is within the key's length, so only the bound of R175 fails. -/
theorem decodeFrame_short (p : Params) {raw : List Byte} {v : DeviceVariant}
    (h : 8 * raw.length < annNeed (flavourOf v)) : decodeFrame p raw v = .error .malformedFrame := by
  have h88 := annNeed_le_88 (flavourOf v)
  obtain ⟨plain, hplain⟩ := deobf_answers (raw := raw) (by omega)
  have hS : (bitrev plain).length < annNeed (flavourOf v) := by rwa [bitrev_length, (deobf_length hplain).1]
  simp only [decodeFrame, hplain, if_pos hS]

/-- Settles O19: the frame is within capacity and no variant is held. -/
theorem decodeWithoutVariantIsRefused : Obligations.DecodeWithoutVariantIsRefused :=
  fun _ _ hunset hcap => exec_decode_unset hcap hunset

/-- Settles O18: the frame is too long for the key, too short for the flavour's windows, or neither. -/
theorem decodeErrsByLengthAlone : Obligations.DecodeErrsByLengthAlone := by
  intro s raw _ hheld hcap
  refine ⟨fun hlong => exec_decode_error hcap hheld (decodeFrame_long _ _ hlong), fun hshort => ?_, fun hmin hL => ?_⟩
  · have hN : 8 * raw.length < annNeed (flavourOf s.var) := by rw [annNeed_flavourOf]; omega
    exact exec_decode_error hcap hheld (decodeFrame_short _ hN)
  · obtain ⟨r, hr⟩ := decodeFrame_answers s.params hL (annNeed_flavourOf_le hmin)
    obtain ⟨_, -, -, -, hvariant⟩ := decodeFrame_eq_ok hr
    exact ⟨r, exec_decode_ok hcap hheld hr, hvariant⟩

/-- Settles O17: the stages of DecodeFrame answer, and each stage operation answers what its stage does. -/
theorem decodeIsItsStagesInOrder : Obligations.DecodeIsItsStagesInOrder := by
  intro s raw hcap hheld hL hneed
  have hmin : annNeed (flavourOf s.var) ≤ 8 * raw.length := by rw [annNeed_flavourOf, mul_ite]; exact hneed
  obtain ⟨r, hr⟩ := decodeFrame_answers s.params hL hmin
  obtain ⟨plain, hplain, hdigits, hnotes, -⟩ := decodeFrame_eq_ok hr
  have hlen : plain.length = raw.length := (deobf_length hplain).1
  have hraw : raw.length ≤ s.params.cap := by omega
  have hS : (bitrev plain).length ≤ 8 * s.params.cap := by rw [bitrev_length]; omega
  exact ⟨plain, bitrev plain, r.digits, r.notes, exec_deobf_ok hraw hplain, exec_bitrev (hlen.trans_le hraw),
    exec_digdec_ok hS hdigits, exec_anndec_ok hS (variantOfCode_variantCode _) hnotes,
    exec_decode_ok hraw hheld (decodeFrame_of_stages hplain hdigits hnotes)⟩

end Sys2Proof.Machine
end

section
/-! SUPPORT. The session register: what writes it, and the frames decoded under it (45_frame_decode.md R170, R176 to
R178). -/

namespace Sys2Proof.Machine

/-- A VSETUP that detects a variant leaves no trace of the instruction before it (R177). -/
theorem exec_vsetup_after {i : Instr} {s t : State} {raw : List Byte} {v : DeviceVariant}
    (hcap : raw.length ≤ s.params.cap) (hd : detect raw = .ok v) (h : exec i s = .next t) :
    exec (.vsetup raw) t = exec (.vsetup raw) s := by
  rw [exec_vsetup_ok (exec_params h ▸ hcap) hd, exec_vsetup_ok hcap hd]
  obtain ⟨y, e⟩ | ⟨_, w, -, -, -, e⟩ := exec_cases i s <;> cases e.symm.trans h <;> rfl

/-- Settles O21: a frame of 3 to 20 bytes is one that VSETUP detects a variant in. -/
theorem secondVsetupOverwritesTheFirst : Obligations.SecondVsetupOverwritesTheFirst := by
  intro s t first second _ hcap h3 hL hfirst _
  exact exec_vsetup_after (by omega) (detect_ok hL (List.getElem?_eq_getElem h3)) hfirst

/-- What a step can do to the session register: leave it, clear its valid bit by RESET, or hold the variant that a VSETUP
answers (R178). -/
theorem step_sessionRegister_cases {s t : State} (h : step s = .next t) :
    (t.var = s.var ∧ t.varValid = s.varValid) ∨
    (∃ rest, s.requests = .reset :: rest ∧ t.varValid = false) ∨
    (∃ x rest raw, s.requests = x :: rest ∧ x.instr? = some (.vsetup raw) ∧ t.reply = some (.ok (.variant t.var))) := by
  obtain ⟨-, e⟩ | ⟨rest, hreq, e⟩ | ⟨r, rest, i, hreq, hdec, e⟩ | ⟨r, rest, _, -, -, e⟩ := step_cases s
  · cases e.symm.trans h; exact .inl ⟨rfl, rfl⟩
  · cases e.symm.trans h; exact .inr (.inl ⟨rest, hreq, rfl⟩)
  · rw [e] at h
    obtain ⟨y, hexec⟩ | ⟨raw, v, rfl, -, -, hexec⟩ := exec_cases i { s with requests := rest }
    · cases hexec.symm.trans h; exact .inl ⟨rfl, rfl⟩
    · cases hexec.symm.trans h
      have hinstr : (HostInput.request r).instr? = some (.vsetup raw) := by rw [HostInput.instr?, hdec]; rfl
      exact .inr (.inr ⟨_, rest, raw, hreq, hinstr, rfl⟩)
  · cases e.symm.trans h

/-- Settles O46: by what a step can do to the session register. -/
theorem onlyResetAndVsetupWriteTheSessionRegister : Obligations.OnlyResetAndVsetupWriteTheSessionRegister := by
  intro s t h
  obtain ⟨hvar, hvalid⟩ | ⟨rest, hreq, hvalid⟩ | ⟨x, rest, raw, hreq, hinstr, hreply⟩ := step_sessionRegister_cases h
  · exact ⟨fun hchange => absurd hchange (by simp [hvar, hvalid]), fun hs ht => by simp [hvalid, hs] at ht⟩
  · exact ⟨fun _ => ⟨_, rest, hreq, .inl rfl⟩, fun _ ht => by simp [hvalid] at ht⟩
  · exact ⟨fun _ => ⟨x, rest, hreq, .inr ⟨raw, hinstr⟩⟩, fun _ _ => hreply⟩

theorem length_le_of_detect_ok {raw : List Byte} {v : DeviceVariant} (h : detect raw = .ok v) : raw.length ≤ 20 :=
  Nat.not_lt.1 fun hL => nomatch (detect_long hL).symm.trans h

theorem trace_succ_of_step {n : Nat} {s t : State} (h : step s = .next t) : trace (n + 1) s = t.reply :: trace n t := by
  rw [trace, h]

/-- While a variant is held, frames asked one after another are each answered by DecodeFrame with it (R172, R174). -/
theorem trace_decodes {s : State} {frames : List (List Byte)} (hheld : s.varValid = true)
    (hcap : ∀ f ∈ frames, f.length ≤ s.params.cap)
    (hreq : s.requests = frames.map (fun f => HostInput.ofInstr (.decode f))) :
    trace frames.length s =
      frames.map (fun f => replyOf (.next (s.finish ((decodeFrame s.params f s.var).map .reading)))) := by
  have hdecodes : ∀ i ∈ frames.map Instr.decode, i.WellFormed ∧ ∀ raw, i ≠ .vsetup raw :=
    List.forall_mem_map.2 fun _ _ => ⟨rfl, nofun⟩
  have hqueue : s.requests = (frames.map Instr.decode).map HostInput.ofInstr ++ [] := by
    rw [hreq, List.map_map, List.append_nil]; rfl
  have hanswers := answersDoNotDependOnEarlierRequests s _ [] hdecodes hqueue
  rw [List.length_map, List.map_map] at hanswers
  exact hanswers.trans (List.map_congr_left fun f hf => congrArg replyOf (exec_decode (hcap f hf) hheld))

/-- Settles O52: the VSETUP holds the variant it detects, and the DECODEs after it write no register. -/
theorem sessionDecodesEveryFrameWithTheDetectedVariant :
    Obligations.SessionDecodesEveryFrameWithTheDetectedVariant := by
  intro s first frames v hcap hdetect hframes hreq
  have hfirst : first.length ≤ s.params.cap := by have := length_le_of_detect_ok hdetect; omega
  have hstep := (step_ofInstr rfl hreq).trans (exec_vsetup_ok hfirst hdetect)
  rw [trace_succ_of_step hstep, trace_decodes (frames := frames)]
  · refine congrArg (List.cons _) (List.map_congr_left fun f _ => ?_)
    dsimp only [State.answer_params, State.answer_var, State.holdVariant_params, State.holdVariant_var]
    cases decodeFrame s.params f v <;> rfl
  · rfl
  · exact hframes
  · rfl

end Sys2Proof.Machine
end

section
/-! SUPPORT. Where the machine stops, and that a hard error or a refusal leaves nothing behind (30_encoding.md R70;
60_exceptions.md R194, R196, R198). -/

namespace Sys2Proof.Machine

/-- A step does not stop the machine unless a request that does not decode is next (R70). -/
theorem step_safe_or_faults (s : State) :
    SafeStep s ∨
    ∃ r rest e, s.requests = .request r :: rest ∧ decode r = .error e ∧ step s = .fault (.noSuchRequest e) := by
  obtain ⟨-, hstep⟩ | ⟨_, -, hstep⟩ | ⟨_, rest, i, -, -, hstep⟩ | hfault := step_cases s
  · exact .inl ⟨_, hstep⟩
  · exact .inl ⟨_, hstep⟩
  · obtain ⟨t, hexec⟩ := exec_answers i { s with requests := rest }
    exact .inl ⟨t, hstep.trans hexec⟩
  · exact .inr hfault

theorem step_of_decode_error {s : State} {r : Request} {rest : List HostInput} {e : Reject}
    (hreq : s.requests = .request r :: rest) (hdec : decode r = .error e) : step s = .fault (.noSuchRequest e) := by
  simp only [step, hreq, hdec]

/-- Settles O36: a step that is not safe has a request next that does not decode. -/
theorem stepStopsOnlyOnWhatIsNoRequest : Obligations.StepStopsOnlyOnWhatIsNoRequest := by
  intro s
  refine ⟨fun f => ⟨fun hf => ?_, ?_⟩, fun r hr => ?_, fun hpresentable => ?_⟩
  · obtain ⟨t, hstep⟩ | ⟨r, rest, e, hreq, hdec, hstep⟩ := step_safe_or_faults s
    · cases hstep.symm.trans hf
    · cases hstep.symm.trans hf; exact ⟨r, rest, e, hreq, hdec, rfl⟩
  · rintro ⟨r, rest, e, hreq, hdec, rfl⟩
    exact step_of_decode_error hreq hdec
  · obtain ⟨t, hstep⟩ | ⟨_, _, _, -, -, hstep⟩ := step_safe_or_faults s <;> cases hstep.symm.trans hr
  · obtain hsafe | ⟨r, rest, e, hreq, hdec, -⟩ := step_safe_or_faults s
    · exact hsafe
    · obtain ⟨i, hi⟩ : Presentable (.request r) := hpresentable _ (by simp [hreq])
      cases hdec.symm.trans hi

/-- Settles O48: only a VSETUP that answers Ok writes more than the reply. -/
theorem errorsAndRefusalsWriteNoState : Obligations.ErrorsAndRefusalsWriteNoState := by
  intro i s t h hfailed
  obtain ⟨y, hexec⟩ | ⟨_, v, -, -, -, hexec⟩ := exec_cases i s
  · cases hexec.symm.trans h; rfl
  · cases hexec.symm.trans h
    obtain ⟨_, he⟩ | ⟨_, hw⟩ := hfailed
    · cases he
    · cases hw

/-- No instruction reads the reply that stands at the port (20_memory.md R49). -/
theorem exec_withReply (i : Instr) (s : State) (y : Option Reply) : exec i { s with reply := y } = exec i s := by
  obtain ⟨v, b, z, hs, ht⟩ := exec_sameEffect (s := s) (t := { s with reply := y }) i ⟨rfl, rfl, rfl⟩
  exact ht.trans hs.symm

theorem step_withReply (s : State) (y : Option Reply) : step { s with reply := y } = step s := by
  unfold step
  dsimp only
  cases s.requests with
  | nil => rfl
  | cons x rest =>
    cases x with
    | reset => rfl
    | request r =>
      dsimp only
      cases Sys2Proof.decode r with
      | ok i => exact exec_withReply i { s with requests := rest } y
      | error e => rfl

/-- What the host is answered does not depend on the reply that stood at the port before. -/
theorem trace_withReply (n : Nat) (s : State) (y : Option Reply) : trace n { s with reply := y } = trace n s := by
  cases n with
  | zero => rfl
  | succ n => rw [trace, trace, step_withReply]

/-- Settles O49: the failed request is taken from the queue and its reply alone is written, which no later step reads. -/
theorem failedRequestLeavesNoTrace : Obligations.FailedRequestLeavesNoTrace := by
  intro s t r rest n hreq hstep hfailed
  cases hdec : decode r with
  | error e => cases (step_of_decode_error hreq hdec).symm.trans hstep
  | ok i =>
    have hexec : exec i { s with requests := rest } = .next t :=
      (stepRunsTheDecodedRequest s r rest i hreq hdec).symm.trans hstep
    rw [errorsAndRefusalsWriteNoState i _ t hexec hfailed]
    exact trace_withReply n { s with requests := rest } t.reply

end Sys2Proof.Machine
end

section
/-! SUPPORT. The two steps that run no request, RESET and the idle step, and a DECODE after a RESET
(70_reset_and_hazards.md R220, R222, R223). -/

namespace Sys2Proof.Machine

theorem step_reset {s : State} {rest : List HostInput} (hreq : s.requests = .reset :: rest) :
    step s = .next { s with requests := rest }.applyReset := by
  unfold step
  rw [hreq]

theorem step_idle {s : State} (hreq : s.requests = []) : step s = .next { s with reply := none } := by
  unfold step
  rw [hreq]

/-- Settles O37: by the state that a RESET step reaches. -/
theorem resetInputClearsTheValidBit : Obligations.ResetInputClearsTheValidBit :=
  fun _ _ hreq => ⟨_, step_reset hreq, State.applyReset_varValid _, State.applyReset_params _,
    State.applyReset_reply _, State.applyReset_requests _⟩

/-- Settles O38: the idle step. -/
theorem idleBlockDoesNothing : Obligations.IdleBlockDoesNothing := fun _ => step_idle

/-- Settles O40: the RESET leaves no variant held and the capacity as it was, so the DECODE after it is refused. -/
theorem decodeAfterResetIsRefused : Obligations.DecodeAfterResetIsRefused := by
  intro s raw rest hcap hreq
  have hdecode : step { s with requests := .ofInstr (.decode raw) :: rest }.applyReset =
      .next ({ s with requests := rest }.applyReset.refuse .variantNotSet) :=
    (step_ofInstr rfl rfl).trans (exec_decode_unset hcap rfl)
  rw [trace_succ_of_step (step_reset hreq), trace_succ_of_step hdecode]
  rfl

end Sys2Proof.Machine
end

section
/-! SUPPORT. The parameters are fixed (10_state.md section 2, R26). -/

namespace Sys2Proof.Machine

/-- Settles O47: the idle step and RESET write other fields, and every instruction's frame has the parameters in it. -/
theorem noStepWritesTheParameters : Obligations.NoStepWritesTheParameters := by
  intro s t h
  obtain ⟨-, hidle⟩ | ⟨rest, -, hreset⟩ | ⟨_, rest, i, -, -, hexec⟩ | ⟨_, _, _, -, -, hfault⟩ := step_cases s
  · cases hidle.symm.trans h; rfl
  · cases hreset.symm.trans h; exact State.applyReset_params _
  · exact exec_params (s := { s with requests := rest }) (hexec.symm.trans h)
  · cases hfault.symm.trans h

end Sys2Proof.Machine
end
